-- ==== Sys2Proof/Config.lean ====
section
/-! DEFINITION. What the manual leaves to the part: the free values. Each is a constant with no body, so nothing can be
proved of the value it gives; State holds the plain counter `free` it is applied to (log entry 5). -/

namespace Sys2Proof

/-- R86, PULL_IN: "any steering that keeps these bounds conforms". The position of one sample period's length between
the two bounds, taken modulo the number of lengths the bounds allow. -/
opaque Config.steering : Nat → Nat

/-- R86, HOLDOVER: which sample periods of a run of 64 take the longer length ("placed anywhere within the run"). -/
opaque Config.longPeriod : Nat → Bool

/-- R170, R171: the byte read at an offset that the body of a REQUEST frame does not hold. A body of fewer than two bytes
holds no kind, and may hold no tag, for its reply to carry, and no rule says what the reply then carries (log entry 16). -/
opaque Config.absentByte : List (BitVec 8) → Nat → BitVec 8

end Sys2Proof
end

