-- ==== Sys2Proof/Word.lean ====
section
/-! DEFINITION. The byte type and the plainest arithmetic of the manual's number formats (00_scope.md, Number formats):
saturation to a range, saturating and wrapping counters, and the two ways of building a vector of a fixed number of
like things. -/

namespace Sys2Proof

/-- A byte as it travels on a lane. -/
abbrev Byte := BitVec 8

/-- "Saturated to [a, b]": replaced by `lo` if below it and by `hi` if above it (00_scope.md, Conventions). -/
def saturate (lo hi x : Int) : Int :=
  if x < lo then lo else if hi < x then hi else x

/-- One more, in a saturating counter whose largest value is `limit` (00_scope.md, Counters). -/
def bump (limit n : Nat) : Nat :=
  if n < limit then n + 1 else n

/-- `k` more, in a saturating counter whose largest value is `limit`. -/
def bumpBy (limit k n : Nat) : Nat :=
  if n + k < limit then n + k else limit

/-- The largest value of a 32-bit counter. -/
def max32 : Nat := 4294967295

/-- One more, in a 32-bit saturating counter. -/
def bump32 (n : Nat) : Nat := bump max32 n

/-- One more, in a count that wraps at `modulus`. -/
def wrapSucc (modulus n : Nat) : Nat := (n + 1) % modulus

/-- The vector whose entry `i` is `f i`. -/
def tabulate {α : Type} (n : Nat) (f : Nat → α) : Vector α n :=
  ⟨((List.range n).map f).toArray, by simp⟩

/-- The vector with `f` applied to every entry. -/
def mapEntries {α β : Type} {n : Nat} (f : α → β) (v : Vector α n) : Vector β n :=
  ⟨(v.toList.map f).toArray, by simp⟩

/-- The vector with `f` applied to entry `i`. -/
def modifyEntry {α : Type} {n : Nat} (v : Vector α n) (i : Fin n) (f : α → α) : Vector α n :=
  v.set i (f v[i])

end Sys2Proof
end

