-- ==== Sys2Proof/Syntax.lean ====
section
/-! DEFINITION. The commands the SR-24 takes: one constructor of `Instr` for each row of spec/opcode_table.json, in the
table's order, with the operands the rule of the row names. A row is either an event (something that happens on a line,
at a timer or at a count) or the taking of one management request (R170).

A request's operands are the fields of its body as received (R191, R193): numbers of the size the layouts chapter gives,
not yet checked against the owner's range, since a value out of range is answered RANGE by the owner. The body is an
`Option`: `none` is a body that cannot be read at the layout of its kind (its length is wrong, R170, or a presence byte is
neither 0 nor 1, R192). -/

namespace Sys2Proof

/-- A clock reference (05_the_studio_clock.md, References and the candidate list). -/
inductive Reference where
  | wordclock
  | link (n : Fin 8)
  | internal
deriving DecidableEq, Repr

/-- A REQUEST frame body as received (R169, 12_frame_and_message_layouts.md): tag, request kind code, request fields. -/
structure RequestFrame where
  tag : Byte
  kind : Byte
  fields : List Byte
deriving DecidableEq, Repr

/-- A valid DOWN block frame as received (R195): the block number, the block size and the playback channel count of its
header, its body length in bytes and its containers in order. -/
structure DownBlock where
  number : Nat
  blockSize : Nat
  channels : Nat
  bodyLength : Nat
  containers : List (BitVec 32)
deriving DecidableEq, Repr

/-- Why a byte run or completed surface message is not well formed (R122). -/
inductive Malformed where
  /-- A start byte arrived before the open message was complete; it opens a new message. -/
  | restarted (start : Byte)
  /-- A byte was received with its stop bit missing. -/
  | framing
  /-- A continuation byte arrived while no message was open. -/
  | stray
  /-- A completed message whose kind field names no inbound kind. -/
  | badKind
deriving DecidableEq, Repr

structure XpAddBody where
  source : Nat
  destination : Nat
  gain : Int
  muted : Nat
  ramp : Nat
deriving DecidableEq, Repr

/-- The pair of XP_REMOVE and XP_READ. -/
structure PairBody where
  source : Nat
  destination : Nat
deriving DecidableEq, Repr

structure XpGainBody where
  source : Nat
  destination : Nat
  gain : Int
  ramp : Nat
deriving DecidableEq, Repr

structure XpMuteBody where
  source : Nat
  destination : Nat
  on : Nat
deriving DecidableEq, Repr

structure XpRampBody where
  source : Nat
  destination : Nat
  ramp : Nat
deriving DecidableEq, Repr

structure PatchListBody where
  first : Nat
  count : Nat
deriving DecidableEq, Repr

/-- An action entry of RULE_WRITE as received (R138, R193). -/
inductive RawAction where
  | forward (label : Nat)
  | driveGain (source destination ramp : Nat)
  | nudgeGain (source destination step : Nat)
  | toggleMute (source destination : Nat)
  | echo (link address : Nat)
  /-- An action kind the manual leaves unassigned. -/
  | unassigned (kind : Nat)
deriving DecidableEq, Repr

structure RuleWriteBody where
  rule : Nat
  valid : Nat
  /-- Bit k is set when the inbound kind whose surface code is k is in the set (R193). -/
  kinds : Nat
  address : Nat
  mask : Nat
  deadband : Nat
  actions : List RawAction
deriving DecidableEq, Repr

structure RuleBlocksBody where
  link : Nat
  start : Nat
  count : Nat
deriving DecidableEq, Repr

structure LawWriteBody where
  start : Nat
  entries : List Int
deriving DecidableEq, Repr

structure SurfaceSendBody where
  link : Nat
  /-- The surface code of the kind (R193): SET_POSITION 8, LAMP 9, METER 10. -/
  kind : Nat
  address : Nat
  value : Nat
deriving DecidableEq, Repr

structure SurfaceConfigBody where
  link : Nat
  interval : Nat
deriving DecidableEq, Repr

structure LinkConfigBody where
  link : Nat
  enable : Nat
  /-- Bit s is set when slot s is enabled (R193). -/
  mask : BitVec 32
  recovery : Nat
deriving DecidableEq, Repr

structure ConverterCommandBody where
  link : Nat
  bytes : List Byte
deriving DecidableEq, Repr

structure ClockCandidatesBody where
  /-- Candidate codes (R193): LINK n is n, WORDCLOCK 8, INTERNAL 9. -/
  list : List Nat
  tolerance : Nat
  limit : Nat
  revert : Nat
deriving DecidableEq, Repr

structure ClockRateBody where
  family : Nat
  mult : Nat
deriving DecidableEq, Repr

structure WclkOutBody where
  output : Nat
  enable : Nat
  divisor : Nat
  polarity : Nat
deriving DecidableEq, Repr

/-- A meter point definition as received (R161). -/
structure RawPoint where
  active : Nat
  tap : Nat
  slot : Nat
  binding : Option (Nat × Nat)
deriving DecidableEq, Repr

structure MeterPointsBody where
  first : Nat
  points : List RawPoint
deriving DecidableEq, Repr

structure UplinkConfigBody where
  blockSize : Nat
  records : Nat
  playback : Nat
deriving DecidableEq, Repr

structure StoreWriteBody where
  autostart : Nat
  fallback : Nat
deriving DecidableEq, Repr

structure CountersReadBody where
  group : Nat
  index : Nat
  count : Nat
  clear : Nat
deriving DecidableEq, Repr

/-- The commands, one constructor for each row of the opcode table. `phase` is the time of an edge within the sample
period in progress, in local ticks from the period's start; `countFirst` says, where one edge both counts toward the
256 of the pull-in and completes a window, that the count is taken first (R96). -/
inductive Instr where
  -- power and the frame generator
  | powerOn
  | powerLoss
  | samplePeriod
  | blockBoundary
  | wclkOutLatch (output : Fin 2)
  | upBlockSent
  -- work that falls at a block boundary
  | commitApply
  | rateChange
  | uplinkConfigEffect
  | resetBoundary
  | uplinkLoss
  | fallbackDecision
  -- downstream frames
  | downBlock (b : DownBlock)
  | request (r : RequestFrame)
  | badFrame
  -- requests being taken
  | unknown (tag kind : Byte)
  | xpAdd (tag : Byte) (body : Option XpAddBody)
  | xpRemove (tag : Byte) (body : Option PairBody)
  | xpGain (tag : Byte) (body : Option XpGainBody)
  | xpMute (tag : Byte) (body : Option XpMuteBody)
  | xpRamp (tag : Byte) (body : Option XpRampBody)
  | xpRead (tag : Byte) (body : Option PairBody)
  | patchList (tag : Byte) (body : Option PatchListBody)
  | patchCommit (tag : Byte) (body : Option Unit)
  | patchDiscard (tag : Byte) (body : Option Unit)
  | ruleWrite (tag : Byte) (body : Option RuleWriteBody)
  | ruleRead (tag : Byte) (rule : Option Nat)
  | ruleBlocks (tag : Byte) (body : Option RuleBlocksBody)
  | lawWrite (tag : Byte) (body : Option LawWriteBody)
  | lawRead (tag : Byte) (start : Option Nat)
  | surfaceSend (tag : Byte) (body : Option SurfaceSendBody)
  | surfaceStatus (tag : Byte) (link : Option Nat)
  | surfaceConfig (tag : Byte) (body : Option SurfaceConfigBody)
  | linkConfig (tag : Byte) (body : Option LinkConfigBody)
  | linkRestart (tag : Byte) (link : Option Nat)
  | linkPause (tag : Byte) (link : Option Nat)
  | linkResume (tag : Byte) (link : Option Nat)
  | linkStatus (tag : Byte) (link : Option Nat)
  | converterCommand (tag : Byte) (body : Option ConverterCommandBody)
  | clockCandidates (tag : Byte) (body : Option ClockCandidatesBody)
  | clockRate (tag : Byte) (body : Option ClockRateBody)
  | clockStatus (tag : Byte) (body : Option Unit)
  | wclkOut (tag : Byte) (body : Option WclkOutBody)
  | meterPoints (tag : Byte) (body : Option MeterPointsBody)
  | meterConfig (tag : Byte) (interval : Option Nat)
  | meterThresholds (tag : Byte) (entries : Option (List Nat))
  /-- MODE_SET with the mode field as received, for a field that does not name OPERATE. -/
  | modeSetSetup (tag : Byte) (mode : Option Nat)
  /-- MODE_SET with the mode field as received, for a field that names OPERATE. -/
  | modeSetOperate (tag : Byte) (mode : Option Nat)
  | uplinkConfig (tag : Byte) (body : Option UplinkConfigBody)
  | deviceReset (tag : Byte) (body : Option Unit)
  | deviceInfo (tag : Byte) (body : Option Unit)
  | storeWrite (tag : Byte) (body : Option StoreWriteBody)
  | storeStatus (tag : Byte) (body : Option Unit)
  | countersRead (tag : Byte) (body : Option CountersReadBody)
  | storeWriteComplete
  -- converter links
  | frameStart (link : Fin 8) (phase : Nat) (countFirst : Bool)
  | converterFrame (link : Fin 8) (bytes : List Byte)
  | frameIncomplete (link : Fin 8)
  | missingFrame (link : Fin 8)
  | noSync (link : Fin 8)
  | holdOffExpiry (link : Fin 8)
  | commandTimeout (link : Fin 8)
  -- the clock unit
  | wordclockEdge (phase : Nat) (countFirst : Bool)
  | edgeLoss (candidate : Reference)
  | pullInCount
  | holdoverExpiry
  -- surface links: the value field as received (R123)
  | hello (link : Fin 4) (address value : Nat)
  | keepalive (link : Fin 4)
  | position (link : Fin 4) (address value : Nat)
  | touch (link : Fin 4) (address value : Nat)
  | press (link : Fin 4) (address value : Nat)
  | turn (link : Fin 4) (address : Nat) (value : Int)
  | malformedMessage (link : Fin 4) (cause : Malformed)
  | messageIncomplete (link : Fin 4)
  | silenceTimerExpiry (link : Fin 4)
  | sendIntervalExpiry (link : Fin 4)
  -- meters and the upstream lane
  | meterReport
  | meterPromotion
  | arbiterChoice
  | messageFrameEnd
deriving DecidableEq, Repr

end Sys2Proof
end

