-- ==== Sys2Proof/Decode.lean ====
section
/-! DEFINITION. From received bytes to commands (12_frame_and_message_layouts.md): the two frame checks, downstream
frames, request bodies, surface messages, and the encoders of the same layouts. Every decoder is total: a byte string that
is not a valid frame or message decodes to the command that counts it. `decodeTableWord` is the host's view of the opcode
table, whose rows carry no bits. -/

namespace Sys2Proof

/-! ### Frame checks (R61, R194) -/

/-- One step of the division: the bit `b` enters a remainder of `w` bits, most significant bit first. -/
def crcBit (w : Nat) (poly r : BitVec w) (b : Bool) : BitVec w :=
  if (r.msb ^^ b) then (r <<< 1) ^^^ poly else r <<< 1

/-- The bits of a byte, most significant first. -/
def byteBits (b : Byte) : List Bool :=
  [b.getLsbD 7, b.getLsbD 6, b.getLsbD 5, b.getLsbD 4, b.getLsbD 3, b.getLsbD 2, b.getLsbD 1, b.getLsbD 0]

/-- The remainder of the bytes, multiplied by x^w, on division by the polynomial x^w + `poly`; it begins at 0 and is
neither reflected nor inverted. -/
def crc (w : Nat) (poly : BitVec w) (bytes : List Byte) : BitVec w :=
  (bytes.flatMap byteBits).foldl (crcBit w poly) 0

/-- The converter frame check, x^8 + x^2 + x + 1 (R61). -/
def check8 (bytes : List Byte) : Byte := crc 8 0x07#8 bytes

/-- The uplink frame check (R194). -/
def check32 (bytes : List Byte) : BitVec 32 := crc 32 0x1EDC6F41#32 bytes

/-! ### Fields (R191 to R193): most significant byte first -/

/-- The unsigned number whose bytes these are, most significant first. -/
def ofBytes (bytes : List Byte) : Nat :=
  bytes.foldl (fun n b => n * 256 + b.toNat) 0

/-- The low `k` bytes of a number, most significant first. -/
def toBytes : Nat → Nat → List Byte
  | 0, _ => []
  | k + 1, n => toBytes k (n / 256) ++ [BitVec.ofNat 8 n]

/-- What a reader leaves: the value read and the bytes after it, or `none` where the bytes run out. -/
abbrev Reader (α : Type) := List Byte → Option (α × List Byte)

/-- Read an unsigned field of `k` bytes. -/
def readNat (k : Nat) : Reader Nat := fun bytes =>
  if bytes.length < k then none else some (ofBytes (bytes.take k), bytes.drop k)

/-- Read a signed field of 4 bytes (a coefficient, R191). -/
def readCoeff : Reader Int := fun bytes =>
  (readNat 4 bytes).map fun p => ((BitVec.ofNat 32 p.1).toInt, p.2)

/-- Read a list of `n` entries. -/
def readMany {α : Type} (read : Reader α) : Nat → Reader (List α)
  | 0, bytes => some ([], bytes)
  | n + 1, bytes => do
    let (x, rest) ← read bytes
    let (xs, rest') ← readMany read n rest
    return (x :: xs, rest')

/-- Read a list that is sent as a 1-byte count and then its entries (R193). -/
def readList {α : Type} (read : Reader α) : Reader (List α) := fun bytes => do
  let (n, rest) ← readNat 1 bytes
  readMany read n rest

/-- The value read, where nothing is left after it: a body of any other length is answered RANGE (R170). -/
def readAll {α : Type} (read : Reader α) (bytes : List Byte) : Option α :=
  match read bytes with
  | some (x, []) => some x
  | _ => none

/-- Read `k` fields of the given sizes, in order. -/
def readFields : List Nat → Reader (List Nat)
  | [], bytes => some ([], bytes)
  | k :: ks, bytes => do
    let (x, rest) ← readNat k bytes
    let (xs, rest') ← readFields ks rest
    return (x :: xs, rest')

/-! ### Request bodies, kind by kind -/

def readXpAdd : Reader XpAddBody := fun bytes => do
  let (src, bytes) ← readNat 2 bytes
  let (dst, bytes) ← readNat 2 bytes
  let (gain, bytes) ← readCoeff bytes
  let (muted, bytes) ← readNat 1 bytes
  let (ramp, bytes) ← readNat 1 bytes
  return (⟨src, dst, gain, muted, ramp⟩, bytes)

def readPair : Reader PairBody := fun bytes => do
  let (src, bytes) ← readNat 2 bytes
  let (dst, bytes) ← readNat 2 bytes
  return (⟨src, dst⟩, bytes)

def readXpGain : Reader XpGainBody := fun bytes => do
  let (src, bytes) ← readNat 2 bytes
  let (dst, bytes) ← readNat 2 bytes
  let (gain, bytes) ← readCoeff bytes
  let (ramp, bytes) ← readNat 1 bytes
  return (⟨src, dst, gain, ramp⟩, bytes)

def readXpMute : Reader XpMuteBody := fun bytes => do
  let (src, bytes) ← readNat 2 bytes
  let (dst, bytes) ← readNat 2 bytes
  let (on, bytes) ← readNat 1 bytes
  return (⟨src, dst, on⟩, bytes)

def readXpRamp : Reader XpRampBody := fun bytes => do
  let (src, bytes) ← readNat 2 bytes
  let (dst, bytes) ← readNat 2 bytes
  let (ramp, bytes) ← readNat 1 bytes
  return (⟨src, dst, ramp⟩, bytes)

def readPatchList : Reader PatchListBody := fun bytes => do
  let (first, bytes) ← readNat 2 bytes
  let (count, bytes) ← readNat 1 bytes
  return (⟨first, count⟩, bytes)

/-- An action entry takes 7 bytes: its kind, its parameters in the order of R138, then unused bytes (R193). -/
def readAction : Reader RawAction := fun bytes => do
  let (kind, bytes) ← readNat 1 bytes
  let (p, bytes) ← readFields [1, 1, 1, 1, 1, 1] bytes
  let at2 (i : Nat) : Nat := p.getD i 0 * 256 + p.getD (i + 1) 0
  let action : RawAction :=
    if kind = 1 then .forward (at2 0)
    else if kind = 2 then .driveGain (at2 0) (at2 2) (p.getD 4 0)
    else if kind = 3 then .nudgeGain (at2 0) (at2 2) (at2 4)
    else if kind = 4 then .toggleMute (at2 0) (at2 2)
    else if kind = 5 then .echo (p.getD 0 0) (at2 1)
    else .unassigned kind
  return (action, bytes)

def readRuleWrite : Reader RuleWriteBody := fun bytes => do
  let (rule, bytes) ← readNat 2 bytes
  let (valid, bytes) ← readNat 1 bytes
  let (kinds, bytes) ← readNat 1 bytes
  let (address, bytes) ← readNat 2 bytes
  let (mask, bytes) ← readNat 2 bytes
  let (deadband, bytes) ← readNat 1 bytes
  let (actions, bytes) ← readList readAction bytes
  return (⟨rule, valid, kinds, address, mask, deadband, actions⟩, bytes)

def readRuleBlocks : Reader RuleBlocksBody := fun bytes => do
  let (link, bytes) ← readNat 1 bytes
  let (start, bytes) ← readNat 2 bytes
  let (count, bytes) ← readNat 2 bytes
  return (⟨link, start, count⟩, bytes)

def readLawWrite : Reader LawWriteBody := fun bytes => do
  let (start, bytes) ← readNat 1 bytes
  let (entries, bytes) ← readMany readCoeff 8 bytes
  return (⟨start, entries⟩, bytes)

def readSurfaceSend : Reader SurfaceSendBody := fun bytes => do
  let (link, bytes) ← readNat 1 bytes
  let (kind, bytes) ← readNat 1 bytes
  let (address, bytes) ← readNat 2 bytes
  let (value, bytes) ← readNat 2 bytes
  return (⟨link, kind, address, value⟩, bytes)

def readSurfaceConfig : Reader SurfaceConfigBody := fun bytes => do
  let (link, bytes) ← readNat 1 bytes
  let (interval, bytes) ← readNat 1 bytes
  return (⟨link, interval⟩, bytes)

def readLinkConfig : Reader LinkConfigBody := fun bytes => do
  let (link, bytes) ← readNat 1 bytes
  let (enable, bytes) ← readNat 1 bytes
  let (mask, bytes) ← readNat 4 bytes
  let (recovery, bytes) ← readNat 1 bytes
  return (⟨link, enable, BitVec.ofNat 32 mask, recovery⟩, bytes)

/-- Read one byte as it stands. -/
def readByte : Reader Byte
  | [] => none
  | b :: rest => some (b, rest)

def readConverterCommand : Reader ConverterCommandBody := fun bytes => do
  let (link, bytes) ← readNat 1 bytes
  let (command, bytes) ← readList readByte bytes
  return (⟨link, command⟩, bytes)

/-- CLOCK_CANDIDATES (R100). The holdover limit is a time, so its field is in ms and takes 2 bytes (R193, log entry 19). -/
def readClockCandidates : Reader ClockCandidatesBody := fun bytes => do
  let (list, bytes) ← readList (readNat 1) bytes
  let (tolerance, bytes) ← readNat 2 bytes
  let (limit, bytes) ← readNat 2 bytes
  let (revert, bytes) ← readNat 1 bytes
  return (⟨list, tolerance, limit, revert⟩, bytes)

def readClockRate : Reader ClockRateBody := fun bytes => do
  let (family, bytes) ← readNat 1 bytes
  let (mult, bytes) ← readNat 1 bytes
  return (⟨family, mult⟩, bytes)

def readWclkOut : Reader WclkOutBody := fun bytes => do
  let (output, bytes) ← readNat 1 bytes
  let (enable, bytes) ← readNat 1 bytes
  let (divisor, bytes) ← readNat 2 bytes
  let (polarity, bytes) ← readNat 1 bytes
  return (⟨output, enable, divisor, polarity⟩, bytes)

/-- A point definition: active, tap kind, slot, and the binding as an optional field (R161, R192). -/
def readPoint : Reader RawPoint := fun bytes => do
  let (active, bytes) ← readNat 1 bytes
  let (tap, bytes) ← readNat 1 bytes
  let (slot, bytes) ← readNat 2 bytes
  let (presence, bytes) ← readNat 1 bytes
  let (link, bytes) ← readNat 1 bytes
  let (address, bytes) ← readNat 2 bytes
  if presence = 0 then return (⟨active, tap, slot, none⟩, bytes)
  else if presence = 1 then return (⟨active, tap, slot, some (link, address)⟩, bytes)
  else none

def readMeterPoints : Reader MeterPointsBody := fun bytes => do
  let (first, bytes) ← readNat 1 bytes
  let (points, bytes) ← readList readPoint bytes
  return (⟨first, points⟩, bytes)

def readUplinkConfig : Reader UplinkConfigBody := fun bytes => do
  let (blockSize, bytes) ← readNat 1 bytes
  let (records, bytes) ← readNat 2 bytes
  let (playback, bytes) ← readNat 2 bytes
  return (⟨blockSize, records, playback⟩, bytes)

def readStoreWrite : Reader StoreWriteBody := fun bytes => do
  let (autostart, bytes) ← readNat 1 bytes
  let (fallback, bytes) ← readNat 1 bytes
  return (⟨autostart, fallback⟩, bytes)

def readCountersRead : Reader CountersReadBody := fun bytes => do
  let (group, bytes) ← readNat 1 bytes
  let (index, bytes) ← readNat 2 bytes
  let (count, bytes) ← readNat 1 bytes
  let (clear, bytes) ← readNat 1 bytes
  return (⟨group, index, count, clear⟩, bytes)

/-- The body of a kind that carries no fields. -/
def readNothing : Reader Unit := fun bytes => some ((), bytes)

/-- The command that takes a waiting request (R170): the kind codes of 12_frame_and_message_layouts.md; any other code is
answered UNKNOWN. -/
def decodeRequest (r : RequestFrame) : Instr :=
  let kind := r.kind.toNat
  if kind = 0x10 then .xpAdd r.tag (readAll readXpAdd r.fields)
  else if kind = 0x11 then .xpRemove r.tag (readAll readPair r.fields)
  else if kind = 0x12 then .xpGain r.tag (readAll readXpGain r.fields)
  else if kind = 0x13 then .xpMute r.tag (readAll readXpMute r.fields)
  else if kind = 0x14 then .xpRamp r.tag (readAll readXpRamp r.fields)
  else if kind = 0x15 then .xpRead r.tag (readAll readPair r.fields)
  else if kind = 0x16 then .patchList r.tag (readAll readPatchList r.fields)
  else if kind = 0x17 then .patchCommit r.tag (readAll readNothing r.fields)
  else if kind = 0x18 then .patchDiscard r.tag (readAll readNothing r.fields)
  else if kind = 0x20 then .ruleWrite r.tag (readAll readRuleWrite r.fields)
  else if kind = 0x21 then .ruleRead r.tag (readAll (readNat 2) r.fields)
  else if kind = 0x22 then .ruleBlocks r.tag (readAll readRuleBlocks r.fields)
  else if kind = 0x23 then .lawWrite r.tag (readAll readLawWrite r.fields)
  else if kind = 0x24 then .lawRead r.tag (readAll (readNat 1) r.fields)
  else if kind = 0x30 then .surfaceSend r.tag (readAll readSurfaceSend r.fields)
  else if kind = 0x31 then .surfaceStatus r.tag (readAll (readNat 1) r.fields)
  else if kind = 0x32 then .surfaceConfig r.tag (readAll readSurfaceConfig r.fields)
  else if kind = 0x40 then .linkConfig r.tag (readAll readLinkConfig r.fields)
  else if kind = 0x41 then .linkRestart r.tag (readAll (readNat 1) r.fields)
  else if kind = 0x42 then .linkPause r.tag (readAll (readNat 1) r.fields)
  else if kind = 0x43 then .linkResume r.tag (readAll (readNat 1) r.fields)
  else if kind = 0x44 then .linkStatus r.tag (readAll (readNat 1) r.fields)
  else if kind = 0x45 then .converterCommand r.tag (readAll readConverterCommand r.fields)
  else if kind = 0x50 then .clockCandidates r.tag (readAll readClockCandidates r.fields)
  else if kind = 0x51 then .clockRate r.tag (readAll readClockRate r.fields)
  else if kind = 0x52 then .clockStatus r.tag (readAll readNothing r.fields)
  else if kind = 0x53 then .wclkOut r.tag (readAll readWclkOut r.fields)
  else if kind = 0x60 then .meterPoints r.tag (readAll readMeterPoints r.fields)
  else if kind = 0x61 then .meterConfig r.tag (readAll (readNat 1) r.fields)
  else if kind = 0x62 then .meterThresholds r.tag (readAll (readMany (readNat 4) 16) r.fields)
  else if kind = 0x70 then
    let mode := readAll (readNat 1) r.fields
    if mode = some 1 then .modeSetOperate r.tag mode else .modeSetSetup r.tag mode
  else if kind = 0x71 then .uplinkConfig r.tag (readAll readUplinkConfig r.fields)
  else if kind = 0x72 then .deviceReset r.tag (readAll readNothing r.fields)
  else if kind = 0x73 then .deviceInfo r.tag (readAll readNothing r.fields)
  else if kind = 0x74 then .storeWrite r.tag (readAll readStoreWrite r.fields)
  else if kind = 0x75 then .storeStatus r.tag (readAll readNothing r.fields)
  else if kind = 0x76 then .countersRead r.tag (readAll readCountersRead r.fields)
  else .unknown r.tag r.kind

/-! ### Request bodies, encoded -/

/-- A coefficient field: 4 bytes, two's complement (R191). -/
def coeffBytes (x : Int) : List Byte := toBytes 4 (BitVec.ofInt 32 x).toNat

/-- An action entry: 7 bytes (R193). -/
def actionBytes : RawAction → List Byte
  | .forward label => toBytes 1 1 ++ toBytes 2 label ++ toBytes 4 0
  | .driveGain src dst ramp => toBytes 1 2 ++ toBytes 2 src ++ toBytes 2 dst ++ toBytes 1 ramp ++ toBytes 1 0
  | .nudgeGain src dst step => toBytes 1 3 ++ toBytes 2 src ++ toBytes 2 dst ++ toBytes 2 step
  | .toggleMute src dst => toBytes 1 4 ++ toBytes 2 src ++ toBytes 2 dst ++ toBytes 2 0
  | .echo link address => toBytes 1 5 ++ toBytes 1 link ++ toBytes 2 address ++ toBytes 3 0
  | .unassigned kind => toBytes 1 kind ++ toBytes 6 0

/-- A point definition: 8 bytes (R161, R192). -/
def pointBytes (p : RawPoint) : List Byte :=
  toBytes 1 p.active ++ toBytes 1 p.tap ++ toBytes 2 p.slot ++
    (match p.binding with
    | none => toBytes 4 0
    | some (link, address) => toBytes 1 1 ++ toBytes 1 link ++ toBytes 2 address)

/-- The REQUEST frame body that carries a request command, where its operands were read from a body (R191, R193); `none`
for an event, for UNKNOWN and for a body that could not be read. -/
def encodeRequest : Instr → Option RequestFrame
  | .xpAdd tag (some b) => some ⟨tag, 0x10, toBytes 2 b.source ++ toBytes 2 b.destination ++ coeffBytes b.gain ++
      toBytes 1 b.muted ++ toBytes 1 b.ramp⟩
  | .xpRemove tag (some b) => some ⟨tag, 0x11, toBytes 2 b.source ++ toBytes 2 b.destination⟩
  | .xpGain tag (some b) => some ⟨tag, 0x12, toBytes 2 b.source ++ toBytes 2 b.destination ++ coeffBytes b.gain ++
      toBytes 1 b.ramp⟩
  | .xpMute tag (some b) => some ⟨tag, 0x13, toBytes 2 b.source ++ toBytes 2 b.destination ++ toBytes 1 b.on⟩
  | .xpRamp tag (some b) => some ⟨tag, 0x14, toBytes 2 b.source ++ toBytes 2 b.destination ++ toBytes 1 b.ramp⟩
  | .xpRead tag (some b) => some ⟨tag, 0x15, toBytes 2 b.source ++ toBytes 2 b.destination⟩
  | .patchList tag (some b) => some ⟨tag, 0x16, toBytes 2 b.first ++ toBytes 1 b.count⟩
  | .patchCommit tag (some _) => some ⟨tag, 0x17, []⟩
  | .patchDiscard tag (some _) => some ⟨tag, 0x18, []⟩
  | .ruleWrite tag (some b) => some ⟨tag, 0x20, toBytes 2 b.rule ++ toBytes 1 b.valid ++ toBytes 1 b.kinds ++
      toBytes 2 b.address ++ toBytes 2 b.mask ++ toBytes 1 b.deadband ++ toBytes 1 b.actions.length ++
      b.actions.flatMap actionBytes⟩
  | .ruleRead tag (some n) => some ⟨tag, 0x21, toBytes 2 n⟩
  | .ruleBlocks tag (some b) => some ⟨tag, 0x22, toBytes 1 b.link ++ toBytes 2 b.start ++ toBytes 2 b.count⟩
  | .lawWrite tag (some b) => some ⟨tag, 0x23, toBytes 1 b.start ++ b.entries.flatMap coeffBytes⟩
  | .lawRead tag (some n) => some ⟨tag, 0x24, toBytes 1 n⟩
  | .surfaceSend tag (some b) => some ⟨tag, 0x30, toBytes 1 b.link ++ toBytes 1 b.kind ++ toBytes 2 b.address ++
      toBytes 2 b.value⟩
  | .surfaceStatus tag (some n) => some ⟨tag, 0x31, toBytes 1 n⟩
  | .surfaceConfig tag (some b) => some ⟨tag, 0x32, toBytes 1 b.link ++ toBytes 1 b.interval⟩
  | .linkConfig tag (some b) => some ⟨tag, 0x40, toBytes 1 b.link ++ toBytes 1 b.enable ++ toBytes 4 b.mask.toNat ++
      toBytes 1 b.recovery⟩
  | .linkRestart tag (some n) => some ⟨tag, 0x41, toBytes 1 n⟩
  | .linkPause tag (some n) => some ⟨tag, 0x42, toBytes 1 n⟩
  | .linkResume tag (some n) => some ⟨tag, 0x43, toBytes 1 n⟩
  | .linkStatus tag (some n) => some ⟨tag, 0x44, toBytes 1 n⟩
  | .converterCommand tag (some b) => some ⟨tag, 0x45, toBytes 1 b.link ++ toBytes 1 b.bytes.length ++ b.bytes⟩
  | .clockCandidates tag (some b) => some ⟨tag, 0x50, toBytes 1 b.list.length ++ b.list.flatMap (toBytes 1) ++
      toBytes 2 b.tolerance ++ toBytes 2 b.limit ++ toBytes 1 b.revert⟩
  | .clockRate tag (some b) => some ⟨tag, 0x51, toBytes 1 b.family ++ toBytes 1 b.mult⟩
  | .clockStatus tag (some _) => some ⟨tag, 0x52, []⟩
  | .wclkOut tag (some b) => some ⟨tag, 0x53, toBytes 1 b.output ++ toBytes 1 b.enable ++ toBytes 2 b.divisor ++
      toBytes 1 b.polarity⟩
  | .meterPoints tag (some b) => some ⟨tag, 0x60, toBytes 1 b.first ++ toBytes 1 b.points.length ++
      b.points.flatMap pointBytes⟩
  | .meterConfig tag (some n) => some ⟨tag, 0x61, toBytes 1 n⟩
  | .meterThresholds tag (some l) => some ⟨tag, 0x62, l.flatMap (toBytes 4)⟩
  | .modeSetSetup tag (some m) => some ⟨tag, 0x70, toBytes 1 m⟩
  | .modeSetOperate tag (some m) => some ⟨tag, 0x70, toBytes 1 m⟩
  | .uplinkConfig tag (some b) => some ⟨tag, 0x71, toBytes 1 b.blockSize ++ toBytes 2 b.records ++ toBytes 2 b.playback⟩
  | .deviceReset tag (some _) => some ⟨tag, 0x72, []⟩
  | .deviceInfo tag (some _) => some ⟨tag, 0x73, []⟩
  | .storeWrite tag (some b) => some ⟨tag, 0x74, toBytes 1 b.autostart ++ toBytes 1 b.fallback⟩
  | .storeStatus tag (some _) => some ⟨tag, 0x75, []⟩
  | .countersRead tag (some b) => some ⟨tag, 0x76, toBytes 1 b.group ++ toBytes 2 b.index ++ toBytes 1 b.count ++
      toBytes 1 b.clear⟩
  | _ => none

/-! ### Downstream frames (R110, R194, R195) -/

/-- The 32-bit containers of a body, four bytes each. -/
def containersOf : List Byte → List (BitVec 32)
  | a :: b :: c :: d :: rest => (a ++ b ++ c ++ d) :: containersOf rest
  | _ => []

/-- A DOWN block body (R195): block number, block size, channel count, unused bytes to offset 16, containers. -/
def decodeDownBlock (body : List Byte) : DownBlock :=
  { number := ofBytes (body.take 2)
    blockSize := ofBytes ((body.drop 2).take 1)
    channels := ofBytes ((body.drop 3).take 2)
    bodyLength := body.length
    containers := containersOf (body.drop 16) }

/-- The kind code of a REQUEST body that holds none: a free value among the codes that name no request kind, so that the
request is answered UNKNOWN (R170, log entry 16). -/
def absentKind (body : List Byte) : Byte :=
  let kind := Config.absentByte body 1
  match decodeRequest ⟨0, kind, []⟩ with
  | .unknown _ _ => kind
  | _ => 0

/-- The request a REQUEST body holds: tag, kind, fields. What a body of fewer than two bytes does not hold is a free value
(log entry 16). -/
def decodeRequestBody : List Byte → RequestFrame
  | tag :: kind :: fields => ⟨tag, kind, fields⟩
  | [tag] => ⟨tag, absentKind [tag], []⟩
  | [] => ⟨Config.absentByte [] 0, absentKind [], []⟩

/-- The command a downstream frame gives (R110): the frame is an 8-byte header (kind, three unused bytes, body length), a
body and a 4-byte check. A frame whose check fails, whose length is not 12 + L or whose kind is neither DOWN block nor
REQUEST is BAD_FRAME. Any other frame is valid, whatever its body holds. -/
def decodeFrame (frame : List Byte) : Instr :=
  let n := frame.length
  let held := frame.take (n - 4)
  let body := held.drop 8
  if n < 12 ∨ n ≠ 12 + ofBytes ((frame.drop 4).take 4) ∨ check32 held ≠ BitVec.ofNat 32 (ofBytes (frame.drop (n - 4)))
  then .badFrame
  else if frame.head? = some 0x01#8 then .downBlock (decodeDownBlock body)
  else if frame.head? = some 0x02#8 then .request (decodeRequestBody body)
  else .badFrame

/-- An uplink frame around a body (12_frame_and_message_layouts.md, Uplink frames). -/
def encodeFrame (kind : Byte) (body : List Byte) : List Byte :=
  let held := kind :: (toBytes 3 0 ++ toBytes 4 body.length ++ body)
  held ++ toBytes 4 (check32 held).toNat

/-! ### Surface messages (R122, R196) -/

/-- The four bytes of a surface message: start mark, kind and address in the first, continuation marks in the others. -/
def surfaceBytes (kind address : Nat) (value : BitVec 12) : List Byte :=
  [ BitVec.ofNat 8 (128 + kind % 16 * 8 + address / 512 % 8),
    BitVec.ofNat 8 (address / 4 % 128),
    BitVec.ofNat 8 (address % 4 * 32 + value.toNat / 128),
    BitVec.ofNat 8 (value.toNat % 128) ]

/-- The command a completed message gives on a link: kinds 1 to 6 are inbound, every other code is malformed (R122). -/
def decodeSurface (link : Fin 4) (b0 b1 b2 b3 : Byte) : Instr :=
  let kind := b0.toNat / 8 % 16
  let address := b0.toNat % 8 * 512 + b1.toNat % 128 * 4 + b2.toNat / 32 % 4
  let value := b2.toNat % 32 * 128 + b3.toNat % 128
  if kind = 1 then .position link address value
  else if kind = 2 then .touch link address value
  else if kind = 3 then .press link address value
  else if kind = 4 then .turn link address (BitVec.ofNat 12 value).toInt
  else if kind = 5 then .hello link address value
  else if kind = 6 then .keepalive link
  else .malformedMessage link .badKind

/-- One byte arriving at a link's assembler (R122): the bytes open so far, and the byte, or `none` for a byte with a framing
error. The answer is what is open afterwards, and the command that the byte completes, if any. -/
def assembleByte (link : Fin 4) (held : List Byte) (byte : Option Byte) : List Byte × Option Instr :=
  match byte with
  | none => ([], some (.malformedMessage link .framing))
  | some b =>
    if b.msb then
      match held with
      | [] => ([b], none)
      | _ => ([b], some (.malformedMessage link (.restarted b)))
    else
      match held with
      | [] => ([], some (.malformedMessage link .stray))
      | [b0, b1, b2] => ([], some (decodeSurface link b0 b1 b2 b))
      | _ => (held ++ [b], none)

/-! ### The opcode table -/

/-- The command that a word spells by the opcode table's bits: no row of spec/opcode_table.json gives bits. -/
def decodeTableWord (_nbits _w : Nat) : Option Instr := none

end Sys2Proof
end

