-- ==== Sys2Proof/Machine/State.lean ====
section
/-! DEFINITION. The state of the SR-24: every piece of state the manual gives the part, as plain data, block by block, and
`State.reset`, the part in its first sample period after a power-on with a store that has never been written (R11, R189).
INVENTORY.md lists each field with its rule. -/

namespace Sys2Proof.Machine

/-! ### Numbers, rates and modes -/

/-- Rate family (R193). -/
inductive Family where
  | k48
  | k44
deriving DecidableEq, Repr

/-- Rate multiplier (R193). -/
inductive Mult where
  | x1
  | x2
  | x4
deriving DecidableEq, Repr

structure Rate where
  family : Family
  mult : Mult
deriving DecidableEq, Repr

/-- Device mode (R184). -/
inductive Mode where
  | setup
  | operate
deriving DecidableEq, Repr

/-- A source or destination number, 0–527 (R1). -/
abbrev Slot := Fin 528

/-- A ramp code, 0–7 (R39). -/
abbrev RampCode := Fin 8

/-! ### The crosspoint engine -/

/-- The fields of an ADD edit (R25) and of a stored record (R186): pair, set gain, muted and ramp code. -/
structure PatchEntry where
  source : Slot
  destination : Slot
  setGain : Int
  muted : Bool
  ramp : RampCode
deriving DecidableEq, Repr

/-- A crosspoint record of the active patch table (R14). -/
structure Crosspoint where
  source : Slot
  destination : Slot
  setGain : Int
  muted : Bool
  ramp : RampCode
  current : Int
  remaining : Nat
  owner : Option (Fin 4)
  automation : Option (Int × RampCode)
deriving DecidableEq, Repr

/-- An edit of the change list (R25). -/
inductive Edit where
  | add (e : PatchEntry)
  | remove (source destination : Slot)
deriving DecidableEq, Repr

/-- The crosspoint engine (R14, R25, R55 to R57). -/
structure Engine where
  /-- The active patch table, in the order of R15. -/
  table : List Crosspoint
  /-- The change list, in staging order (R25). -/
  edits : List Edit
  /-- The tag of the PATCH_COMMIT that sealed the change list; `none` while it is unsealed (R30). -/
  commit : Option Byte
  /-- The y of each destination in the sample period in progress, 0 where it has none (R54); entry 512 + b is the value
  of mix bus b (R55). -/
  outputs : Vector Int 528
  /-- The destinations whose clip flag is raised in the sample period in progress (R57). -/
  clipFlags : List Slot
  /-- The destination clip counters (R56). -/
  clips : Vector Nat 528
deriving DecidableEq, Repr

/-! ### The frame generator -/

/-- The frame generator (R7 to R10) and the channel counts P and R (R4). -/
structure FrameGen where
  rate : Rate
  blockSize : Nat
  /-- Record channel count R. -/
  records : Nat
  /-- Playback channel count P. -/
  playback : Nat
  sampleCounter : Nat
  blockNumber : Nat
  /-- The period within the block. -/
  position : Nat
  /-- The stamp of the first sample period of the block period in progress (R108, R120). -/
  blockStamp : Nat
  /-- The device mode in force at the start of the sample period in progress (R48). -/
  periodMode : Mode
deriving DecidableEq, Repr

/-- A pending UPLINK_CONFIG (R115). -/
structure BlockConfig where
  blockSize : Nat
  records : Nat
  playback : Nat
deriving DecidableEq, Repr

/-- What is still to be done at the block boundary in progress. `taken` holds from BLOCK_BOUNDARY until the first sample
period of the new block period starts; each other field is a step of its own that the boundary has made due. -/
structure Boundary where
  taken : Bool
  /-- A sealed change list is to be applied (R33). -/
  commit : Bool
  /-- A rate that differs from the one in force takes effect (R102). -/
  rate : Option Rate
  /-- A block configuration that differs from the one in force takes effect (R116). -/
  config : Option BlockConfig
  /-- DEVICE_RESET acts (R190). -/
  reset : Bool
  /-- A fallback decision is due (R118). -/
  fallback : Bool
  /-- A meter report is to be formed (R164). -/
  report : Bool
deriving DecidableEq, Repr

/-! ### The clock unit -/

inductive LockState where
  | free
  | pullIn
  | locked
  | holdover
deriving DecidableEq, Repr

inductive Qualification where
  | unqualified
  | qualifying
  | qualified
deriving DecidableEq, Repr

/-- A measurement window in progress (R90): its edge count, and the local ticks at its starting edge and at the latest
edge. -/
structure Window where
  edges : Nat
  start : Nat
  latest : Nat
deriving DecidableEq, Repr

/-- An entry of the candidate list (R88, R90, R91, R93). INTERNAL keeps the initial values: it is not measured. -/
structure Candidate where
  ref : Reference
  qualification : Qualification
  /-- `none` while the candidate is waiting. -/
  window : Option Window
  /-- The reference's period in local ticks, from its two latest edges (`edgePeriod`). -/
  interval : Option Nat
  /-- The last deviation, in ppm; absent until a window completes. -/
  deviation : Option Int
  /-- The m of the latest in-tolerance window. -/
  goodCount : Option Nat
deriving DecidableEq, Repr

/-- A word clock output setting (R103). -/
structure WclkSetting where
  enabled : Bool
  divisor : Nat
  inverted : Bool
deriving DecidableEq, Repr

/-- A word clock output (R103, R104). The position k is absent while the output is disabled, and from the latch of an
enabled setting until the sample period that begins its output period. -/
structure WclkOutput where
  active : WclkSetting
  waiting : Option WclkSetting
  position : Option Nat
deriving DecidableEq, Repr

structure ClockCounters where
  selections : Nat
  holdovers : Nat
  expiries : Nat
  edgeLosses : Nat
  outOfTolerance : Nat
deriving DecidableEq, Repr

/-- The clock unit (R86 to R107). -/
structure ClockUnit where
  candidates : List Candidate
  /-- Tolerance, in ppm. -/
  tolerance : Nat
  /-- Holdover limit, in ms (R193). -/
  limit : Nat
  revert : Bool
  lock : LockState
  selected : Option Reference
  lost : Option Reference
  /-- The last deviation of the selected or lost candidate, held apart from the list (R100). -/
  heldDeviation : Option Int
  /-- The holdover count m (R91). -/
  holdCount : Option Nat
  /-- The local time at which the running holdover timer stood at 0; `none` while it is stopped (R98). -/
  holdStart : Option Nat
  pullInCount : Nat
  /-- The length in force at entry to PULL_IN, in local ticks (R86). -/
  entryLength : Nat
  /-- In HOLDOVER: sample periods begun of the present run of 64, and how many of them took the longer length (R86). -/
  runPeriods : Nat
  runLong : Nat
  /-- The offset from a reference edge, in local ticks, at which the sample periods start, chosen on entry to LOCKED and
  held while the unit stays LOCKED (R86). -/
  lockOffset : Int
  pendingRate : Option Rate
  outputs : Vector WclkOutput 2
  counters : ClockCounters
  /-- The length of the sample period in progress, in local ticks (R86). -/
  periodTicks : Nat
  /-- The same length in the model's unit of local time (`ticksToTime`). -/
  periodTime : Nat
  /-- Local ticks from power-on to the start of the sample period in progress. -/
  ticks : Nat
  /-- Local time from power-on to the start of the sample period in progress. -/
  time : Nat
deriving DecidableEq, Repr

/-! ### Converter links -/

inductive LinkState where
  | off
  | align
  | active
  | paused
  | fault
deriving DecidableEq, Repr

inductive Recovery where
  | auto
  | manual
  | park
deriving DecidableEq, Repr

inductive FaultReason where
  | noSync
  | errors
  | missing
deriving DecidableEq, Repr

/-- How the values of a frame period were chosen (R72). -/
inductive Concealment where
  | good
  | repeated
  | silent
deriving DecidableEq, Repr

/-- What the judgement of a frame period gives the sample period two later (R62, R72): `active` says that the link
presents at all, `samples` holds the chosen slots before the slot mask. -/
structure Presentation where
  active : Bool
  choice : Concealment
  samples : Vector Int 32
deriving DecidableEq, Repr

/-- Where a frame period stands (R60 to R62): its window has no frame start yet, a frame start is assigned to it, or it
has been judged. -/
inductive FrameStatus where
  | unstarted
  | started
  | judged (p : Presentation)
deriving DecidableEq, Repr

/-- A frame period whose judgement or presentation is still to come; `age` counts the sample periods begun since. -/
structure FramePeriod where
  age : Nat
  status : FrameStatus
deriving DecidableEq, Repr

/-- The command relay (R79 to R82). SENDING holds the bytes still to go out; AWAITING holds the reply period count and
the reply being gathered: how many bytes are still to come and the bytes so far. -/
inductive Relay where
  | idle
  | sending (tag : Byte) (left : List Byte)
  | awaiting (tag : Byte) (count : Nat) (gathered : Option (Nat × List Byte))
deriving DecidableEq, Repr

/-- The part's converter frame of a frame period (R63). -/
structure PartFrame where
  sequence : Byte
  state : LinkState
  rate : Rate
  slots : List Int
  command : Byte
deriving DecidableEq, Repr

structure LinkCounters where
  good : Nat
  bad : Nat
  missing : Nat
  extra : Nat
  concealed : Nat
  silenced : Nat
  faults : Nat
  timeouts : Nat
deriving DecidableEq, Repr

/-- A converter link controller (R60 to R85). -/
structure Link where
  state : LinkState
  enable : Bool
  pause : Bool
  mask : BitVec 32
  recovery : Recovery
  degraded : Bool
  errors : Nat
  reason : Option FaultReason
  /-- The sequence reference (R61). -/
  reference : Option Byte
  /-- The last good frame's samples; entries above the frame's slots are 0. -/
  lastGood : Vector Int 32
  /-- The converter locked flag of the last good frame (R78). -/
  locked : Option Bool
  /-- The concealment run. -/
  run : Nat
  /-- The count of consecutive missing frames. -/
  missing : Nat
  goodRun : Nat
  alignCount : Nat
  holdOff : Nat
  /-- The entry to ALIGN or FAULT was made in the frame period in progress, which its count leaves out (R65, R68). -/
  fresh : Bool
  /-- The frame periods not yet presented, oldest first. -/
  frames : List FramePeriod
  /-- The values presented as input slots in the sample period in progress. -/
  presented : Vector Int 32
  /-- The sequence number of the next frame sent. -/
  txSequence : Byte
  /-- The frame sent in the frame period in progress. -/
  txFrame : Option PartFrame
  relay : Relay
  counters : LinkCounters
deriving DecidableEq, Repr

/-! ### The uplink receiver -/

inductive UplinkState where
  | up
  | lost
deriving DecidableEq, Repr

/-- A DOWN block held in the playback ring (R111): its number and its samples, position by position. -/
structure RingBlock where
  number : Nat
  samples : List Int
deriving DecidableEq, Repr

structure UplinkCounters where
  stored : Nat
  played : Nat
  underruns : Nat
  late : Nat
  early : Nat
  duplicates : Nat
  bad : Nat
  flushed : Nat
  losses : Nat
  installs : Nat
deriving DecidableEq, Repr

/-- The uplink receiver (R110 to R121). -/
structure UplinkRx where
  ring : List RingBlock
  /-- The next-play number N. -/
  nextPlay : Nat
  /-- The samples of the DOWN block played in the block period in progress; `none` plays silence. -/
  playing : Option (List Int)
  playedFlag : Bool
  state : UplinkState
  lossCount : Nat
  /-- A valid downstream frame was taken in the block period in progress (R117). -/
  heard : Bool
  fallbackFlag : Bool
  /-- A fallback decision falls due at the next block boundary (R117). -/
  fallbackArmed : Bool
  pendingConfig : Option BlockConfig
  counters : UplinkCounters
deriving DecidableEq, Repr

/-! ### Surface links -/

inductive SurfaceState where
  | silent
  | online
  | lost
deriving DecidableEq, Repr

/-- The kinds an update may have (R129). -/
inductive UpdateKind where
  | setPosition
  | lamp
  | meter
deriving DecidableEq, Repr

/-- An entry of an update set (R129). -/
structure Update where
  kind : UpdateKind
  address : Nat
  value : Nat
  age : Nat
deriving DecidableEq, Repr

/-- A message sent to a surface (R130, R196). -/
inductive OutMessage where
  | helloAck
  | update (kind : UpdateKind) (address value : Nat)
deriving DecidableEq, Repr

structure SurfaceCounters where
  received : Nat
  malformed : Nat
  clamped : Nat
  discarded : Nat
  hellos : Nat
  unmatched : Nat
  sent : Nat
  overflow : Nat
  losses : Nat
deriving DecidableEq, Repr

/-- A surface link controller (R122 to R137). -/
structure Surface where
  state : SurfaceState
  /-- The model code, absent until a HELLO records one. -/
  model : Option Nat
  ackPending : Bool
  updates : List Update
  /-- The send interval in force and the stored one, in ms (R133). -/
  interval : Nat
  stored : Nat
  /-- The local time at which the send-interval timer last restarted. -/
  intervalStart : Nat
  /-- The local time at which the silence timer last restarted; it runs in ONLINE only. -/
  silenceStart : Nat
  /-- The bytes of the message open in the assembler; `[]` when none is open. -/
  assembler : List Byte
  /-- The local time at which the open message's start byte was received, or, while none is open, at which the assembler
  was last emptied, before which no message has opened since (R122). -/
  assemblerStart : Nat
  /-- The message most recently begun on the line. -/
  lastSent : Option OutMessage
  counters : SurfaceCounters
deriving DecidableEq, Repr

/-! ### The rule unit -/

/-- The inbound kinds a rule can match (R138). -/
inductive MessageKind where
  | position
  | touch
  | press
  | turn
deriving DecidableEq, Repr

/-- An action entry (R138). -/
inductive Action where
  | forward (label : Nat)
  | driveGain (source destination : Slot) (ramp : RampCode)
  | nudgeGain (source destination : Slot) (step : Nat)
  | toggleMute (source destination : Slot)
  | echo (link : Fin 4) (address : Nat)
deriving DecidableEq, Repr

/-- An event rule (R138). -/
structure Rule where
  valid : Bool
  kinds : List MessageKind
  address : Nat
  mask : Nat
  deadband : Nat
  lastPassed : Option Nat
  actions : List Action
deriving DecidableEq, Repr

/-- A rule block (R139). -/
structure RuleBlock where
  start : Nat
  count : Nat
deriving DecidableEq, Repr

structure RuleCounters where
  matched : Nat
  deadbandDrops : Nat
  missedBindings : Nat
  heldSkips : Nat
deriving DecidableEq, Repr

/-- The rule unit (R138 to R160). -/
structure RuleUnit where
  rules : Vector Rule 512
  blocks : Vector RuleBlock 4
  /-- The fader law (R156). -/
  law : Vector Int 129
  counters : RuleCounters
deriving DecidableEq, Repr

/-! ### The meter unit -/

inductive Tap where
  | source
  | destination
deriving DecidableEq, Repr

/-- A meter point (R161). -/
structure MeterPoint where
  active : Bool
  tap : Tap
  slot : Slot
  binding : Option (Fin 4 × Nat)
  peak : Nat
  clipSeen : Bool
deriving DecidableEq, Repr

/-- What a report carries of one point (R164). -/
structure PointReading where
  point : Nat
  peak : Nat
  clipSeen : Bool
deriving DecidableEq, Repr

/-- A meter report (R164). -/
structure MeterReport where
  config : Nat
  first : Nat
  last : Nat
  merge : Nat
  setupSeen : Bool
  points : List PointReading
deriving DecidableEq, Repr

/-- The meter unit (R161 to R168). -/
structure MeterUnit where
  points : Vector MeterPoint 64
  /-- The configuration number. -/
  config : Nat
  interval : Nat
  count : Nat
  thresholds : Vector Nat 16
  /-- The record that a SETUP period fell within the interval in progress (R162). -/
  setupSeen : Bool
  /-- The number of the first block period of the interval in progress. -/
  coverStart : Nat
deriving DecidableEq, Repr

/-! ### Replies, notices and the uplink transmitter -/

/-- Reply statuses (R171). -/
inductive Status where
  | ok
  | busy
  | range
  | notFound
  | exists_
  | full
  | wrongMode
  | conflict
  | aborted
  | linkDown
  | timeout
  | unknown
deriving DecidableEq, Repr

/-- The markers of XP_READ (R23). -/
inductive Marker where
  | plain
  | pendingRemove
  | pendingAdd
deriving DecidableEq, Repr

/-- The limit a CONFLICT names (R31). -/
inductive Limit where
  | total
  | destination
deriving DecidableEq, Repr

/-- The XP_READ reply (R23). -/
structure XpView where
  marker : Marker
  setGain : Int
  muted : Bool
  ramp : RampCode
  current : Option Int
  remaining : Option Nat
  target : Int
  live : Option Bool
  owner : Option (Fin 4)
  automation : Option (Int × RampCode)
  listSealed : Bool
deriving DecidableEq, Repr

/-- One record of a PATCH_LIST reply (R24). -/
structure ListedRecord where
  source : Slot
  destination : Slot
  setGain : Int
  muted : Bool
  ramp : RampCode
  current : Int
  remaining : Nat
  owner : Option (Fin 4)
  automation : Option (Int × RampCode)
  marker : Marker
deriving DecidableEq, Repr

/-- One class of an update set in SURFACE_STATUS (R134): the number of entries and the age of the oldest. -/
structure ClassView where
  entries : Nat
  oldest : Option Nat
deriving DecidableEq, Repr

/-- The SURFACE_STATUS reply (R134). -/
structure SurfaceView where
  state : SurfaceState
  model : Option Nat
  /-- Time since the last well-formed message, in ms. -/
  since : Option Nat
  interval : Nat
  stored : Option Nat
  ackPending : Bool
  entries : Nat
  positions : ClassView
  lamps : ClassView
  meters : ClassView
  holds : Nat
  block : RuleBlock
deriving DecidableEq, Repr

/-- The relay as LINK_STATUS names it (R78). -/
inductive RelayView where
  | idle
  | sending
  | awaiting
deriving DecidableEq, Repr

/-- The LINK_STATUS reply (R78). -/
structure LinkView where
  state : LinkState
  degraded : Bool
  enable : Bool
  pause : Bool
  mask : BitVec 32
  recovery : Recovery
  errors : Nat
  run : Nat
  missing : Nat
  goodRun : Option Nat
  alignCount : Option Nat
  holdOff : Option Nat
  reason : Option FaultReason
  locked : Option Bool
  relay : RelayView
  slots : Nat
deriving DecidableEq, Repr

/-- One external candidate of CLOCK_STATUS (R106). -/
structure CandidateView where
  ref : Reference
  /-- Absent for INTERNAL, which is not measured: eligible, selectable, qualification, window in progress, deviation. -/
  measured : Option (Bool × Bool × Qualification × Bool × Option Int)
deriving DecidableEq, Repr

/-- The CLOCK_STATUS reply (R106). -/
structure ClockView where
  lock : LockState
  selected : Option Reference
  lost : Option Reference
  /-- The lost candidate's last deviation (R98). -/
  lostDeviation : Option Int
  /-- Time held over, in ms. -/
  held : Option Nat
  pullInCount : Option Nat
  holdCount : Option Nat
  candidates : List CandidateView
  tolerance : Nat
  limit : Nat
  revert : Bool
  rate : Rate
  pendingRate : Option Rate
  blockSize : Nat
  position : Nat
  sampleCounter : Nat
  blockNumber : Nat
  outputs : List (WclkSetting × Option WclkSetting)
deriving DecidableEq, Repr

/-- The store state as it is named in replies and alarms (R186). -/
inductive StoreName where
  | empty
  | writing
  | valid
  | incomplete
deriving DecidableEq, Repr

/-- The DEVICE_INFO reply (R182), apart from the fixed identity and capacities. -/
structure DeviceView where
  mode : Mode
  rate : Rate
  blockSize : Nat
  playback : Nat
  records : Nat
  sampleCounter : Nat
  blockNumber : Nat
  uplink : UplinkState
  store : StoreName
  resets : Nat
  places : Nat
  edits : Nat
  listSealed : Bool
deriving DecidableEq, Repr

/-- The STORE_STATUS reply (R186). -/
structure StoreView where
  state : StoreName
  records : Option Nat
  rate : Option Rate
  autostart : Option Bool
  fallback : Option Bool
  /-- Time since the write was taken, in ms. -/
  since : Option Nat
  completed : Nat
deriving DecidableEq, Repr

/-- The fields of a reply (R171). -/
inductive ReplyData where
  | plain
  | conflict (position : Nat) (source destination : Slot) (limit : Limit)
  | xpRead (v : XpView)
  | patchList (records : List ListedRecord) (total edits : Nat) (listSealed : Bool) (returned : Nat)
  | rule (r : Rule) (link : Option (Fin 4))
  | law (entries : List Int)
  | surfaceStatus (v : SurfaceView)
  | linkState (s : LinkState)
  | linkStatus (v : LinkView)
  | bytes (b : List Byte)
  | lockState (lock : LockState) (selected : Option Reference)
  | clockStatus (v : ClockView)
  | configNumber (n : Nat)
  | deviceInfo (v : DeviceView)
  | storeStatus (v : StoreView)
  /-- `wide`: 4 bytes a counter; otherwise 2 (R179). -/
  | counters (wide : Bool) (values : List Nat)
deriving DecidableEq, Repr

/-- What an owner answers to a request: status, HELD indicator and data (R171). -/
structure Answer where
  status : Status
  held : Bool
  data : ReplyData
deriving DecidableEq, Repr

/-- A reply (R171): the tag and kind code of its request, and the answer. -/
structure Reply where
  tag : Byte
  kind : Byte
  answer : Answer
deriving DecidableEq, Repr

inductive UplinkAlarmKind where
  | underrun
  | lost
  | returned
deriving DecidableEq, Repr

/-- The alarms (R83, R105, R120, R135, R188). -/
inductive Alarm where
  | linkState (link : Fin 8) (state : LinkState) (degraded pause : Bool) (errors : Nat) (reason : Option FaultReason)
      (stamp : Nat)
  | surfaceState (link : Fin 4) (state : SurfaceState) (model : Option Nat) (released : Option Nat) (stamp : Nat)
  | clockState (lock : LockState) (ref : Option Reference) (rate : Rate) (deviation : Option Int) (stamp : Nat)
  | uplink (kind : UplinkAlarmKind) (state : UplinkState) (block stamp occupancy underruns : Nat) (fallback : Option Bool)
  | store (state : StoreName) (records : Option Nat) (completed stamp : Nat)
deriving DecidableEq, Repr

/-- The alarm keys (R174). -/
inductive AlarmKey where
  | link (n : Fin 8)
  | surface (n : Fin 4)
  | clock
  | uplink
  | store
deriving DecidableEq, Repr

/-- An entry of the alarm queue (R174). -/
structure AlarmEntry where
  alarm : Alarm
  superseded : Nat
deriving DecidableEq, Repr

/-- A SURFACE_EVENT notice (R127, R145). -/
structure SurfaceEvent where
  link : Fin 4
  kind : MessageKind
  address : Nat
  value : Int
  label : Nat
  stamp : Nat
deriving DecidableEq, Repr

/-- The meter slot's report (R165, R176). `stale`: a METER_POINTS was taken since the report was formed. -/
structure SlotReport where
  report : MeterReport
  age : Nat
  promoted : Bool
  stale : Bool
deriving DecidableEq, Repr

/-- An UP block (R108): header and the containers' samples, one list for each position. -/
structure UpBlock where
  number : Nat
  stamp : Nat
  blockSize : Nat
  records : Nat
  playback : Nat
  rate : Rate
  mode : Mode
  uplink : UplinkState
  played : Bool
  nextPlay : Nat
  occupancy : Nat
  rows : List (List Int)
deriving DecidableEq, Repr

/-- A message frame on the upstream lane (R177). -/
inductive Message where
  | alarm (e : AlarmEntry)
  | reply (r : Reply)
  | event (e : SurfaceEvent) (loss : Nat)
  | meter (r : MeterReport)
deriving DecidableEq, Repr

/-- The upstream lane: free, or carrying a frame. -/
inductive Lane where
  | free
  | block (b : UpBlock)
  | message (m : Message)
deriving DecidableEq, Repr

/-- The MANAGEMENT counters (R181). -/
structure MgmtCounters where
  received : Nat
  dropped : Nat
  unknown : Nat
  repliesSent : Nat
  alarmsSent : Nat
  superseded : Nat
  eventsQueued : Nat
  eventsLost : Nat
  eventsSent : Nat
  reportsSent : Nat
deriving DecidableEq, Repr

/-- The uplink transmitter and the management processor's request queue (R169 to R183). -/
structure Management where
  requests : List RequestFrame
  replies : List Reply
  alarms : List AlarmEntry
  events : List SurfaceEvent
  /-- The pending-loss count (R175). -/
  pendingLoss : Nat
  meterSlot : Option SlotReport
  /-- The arbiter's frame count. -/
  frameCount : Nat
  lane : Lane
  /-- UP blocks due that wait for the frame on the lane to end (R109). -/
  blocksDue : List UpBlock
  /-- The record channels gathered so far in the block period in progress, one list for each position (R108). -/
  gathered : List (List Int)
  counters : MgmtCounters
deriving DecidableEq, Repr

/-! ### The mode and store unit -/

/-- The contents of the store (R186). -/
structure StoredPatch where
  records : List PatchEntry
  rate : Rate
  autostart : Bool
  fallback : Bool
deriving DecidableEq, Repr

/-- The fallback store (R186). A write in flight holds its snapshot, the tag of its request and the local time at which
it was taken. -/
inductive Store where
  | empty
  | writing (snapshot : StoredPatch) (tag : Byte) (since : Nat)
  | valid (patch : StoredPatch)
  | incomplete
deriving DecidableEq, Repr

/-- A DEVICE_RESET in flight (R190): its reply is still to be sent, or has been wholly sent. -/
inductive ResetState where
  | idle
  | replying
  | ready
deriving DecidableEq, Repr

/-- The mode and store unit (R184 to R190). -/
structure Device where
  mode : Mode
  store : Store
  /-- The completed-write count. -/
  completed : Nat
  resetState : ResetState
  /-- The reset count (R182). -/
  resets : Nat
deriving DecidableEq, Repr

/-! ### The machine -/

/-- The state of the part. `pending` is the queue of commands waiting, first in, first out; `powered` says that the part
has power; `free` is the model's own counter that the free values of Config are applied to. -/
structure State where
  pending : List Instr
  powered : Bool
  free : Nat
  gen : FrameGen
  boundary : Boundary
  clock : ClockUnit
  links : Vector Link 8
  uplink : UplinkRx
  engine : Engine
  surfaces : Vector Surface 4
  rules : RuleUnit
  meter : MeterUnit
  mgmt : Management
  device : Device
deriving DecidableEq, Repr

/-- The faults of the model: none. No rule of the manual stops the part. -/
inductive Fault where
deriving DecidableEq, Repr

/-- The refusals of the model. -/
inductive Refusal where
  /-- Raised by an arm of `exec` whose command has no meaning in the model; safe, since nothing then follows. No arm
  raises it. -/
  | notModelled (mnemonic : String)
deriving DecidableEq, Repr

/-! ### Reset values -/

/-- 48 kHz ×1 (R11). -/
def Rate.base : Rate := ⟨.k48, .x1⟩

/-- No boundary in progress and nothing due. -/
def Boundary.none : Boundary :=
  { taken := false, commit := false, rate := Option.none, config := Option.none, reset := false, fallback := false,
    report := false }

/-- A candidate as it joins the list (R93). -/
def Candidate.joined (r : Reference) : Candidate :=
  { ref := r, qualification := .unqualified, window := none, interval := none, deviation := none, goodCount := none }

def ClockCounters.zero : ClockCounters := ⟨0, 0, 0, 0, 0⟩
def LinkCounters.zero : LinkCounters := ⟨0, 0, 0, 0, 0, 0, 0, 0⟩
def UplinkCounters.zero : UplinkCounters := ⟨0, 0, 0, 0, 0, 0, 0, 0, 0, 0⟩
def SurfaceCounters.zero : SurfaceCounters := ⟨0, 0, 0, 0, 0, 0, 0, 0, 0⟩
def RuleCounters.zero : RuleCounters := ⟨0, 0, 0, 0⟩
def MgmtCounters.zero : MgmtCounters := ⟨0, 0, 0, 0, 0, 0, 0, 0, 0, 0⟩

/-- A word clock output after power-on: disabled, D = 1, normal polarity, nothing pending (R104). -/
def WclkOutput.reset : WclkOutput :=
  { active := ⟨false, 1, false⟩, waiting := none, position := none }

/-- The clock unit after power-on (R88, R107), in a first sample period of 512 local ticks (75,264 units of time). -/
def ClockUnit.reset : ClockUnit :=
  { candidates := [Candidate.joined .internal], tolerance := 500, limit := 10000, revert := false, lock := .free,
    selected := none, lost := none, heldDeviation := none, holdCount := none, holdStart := none, pullInCount := 0,
    entryLength := 0, runPeriods := 0, runLong := 0, lockOffset := 0, pendingRate := none,
    outputs := Vector.replicate 2 WclkOutput.reset, counters := ClockCounters.zero, periodTicks := 512,
    periodTime := 75264, ticks := 0, time := 0 }

/-- A converter link after power-on without autostart (R85). -/
def Link.reset : Link :=
  { state := .off, enable := false, pause := false, mask := 0xFFFFFFFF#32, recovery := .auto, degraded := false,
    errors := 0, reason := none, reference := none, lastGood := Vector.replicate 32 0, locked := none, run := 0,
    missing := 0, goodRun := 0, alignCount := 0, holdOff := 0, fresh := false, frames := [],
    presented := Vector.replicate 32 0, txSequence := 0, txFrame := none, relay := .idle, counters := LinkCounters.zero }

/-- A surface link after power-on (R137). -/
def Surface.reset : Surface :=
  { state := .silent, model := none, ackPending := false, updates := [], interval := 2, stored := 2, intervalStart := 0,
    silenceStart := 0, assembler := [], assemblerStart := 0, lastSent := none, counters := SurfaceCounters.zero }

/-- An event rule after power-on (R138). -/
def Rule.reset : Rule :=
  { valid := false, kinds := [], address := 0, mask := 0, deadband := 0, lastPassed := none, actions := [] }

/-- The rule unit after power-on (R138, R139, R156): the default law's entry k is k × 8,192. -/
def RuleUnit.reset : RuleUnit :=
  { rules := Vector.replicate 512 Rule.reset, blocks := Vector.replicate 4 ⟨0, 0⟩,
    law := tabulate 129 (fun k => (k : Int) * 8192), counters := RuleCounters.zero }

/-- A meter point after power-on (R161). -/
def MeterPoint.reset : MeterPoint :=
  { active := false, tap := .destination, slot := 0, binding := none, peak := 0, clipSeen := false }

/-- The meter unit after power-on (R161, R163, R166): default threshold k is 2 to the power 8 + k. -/
def MeterUnit.reset : MeterUnit :=
  { points := Vector.replicate 64 MeterPoint.reset, config := 0, interval := 8, count := 0,
    thresholds := tabulate 16 (fun k => 2 ^ (8 + k)), setupSeen := false, coverStart := 0 }

/-- The engine with an empty table (R17, R25, R55, R56). -/
def Engine.reset : Engine :=
  { table := [], edits := [], commit := none, outputs := Vector.replicate 528 0, clipFlags := [],
    clips := Vector.replicate 528 0 }

/-- The frame generator after power-on at 48 kHz ×1 in SETUP (R4, R11). -/
def FrameGen.reset : FrameGen :=
  { rate := Rate.base, blockSize := 16, records := 256, playback := 256, sampleCounter := 0, blockNumber := 0,
    position := 0, blockStamp := 0, periodMode := .setup }

/-- The uplink receiver at power-on, before block period 0's play time (R121). -/
def UplinkRx.reset : UplinkRx :=
  { ring := [], nextPlay := 0, playing := none, playedFlag := false, state := .up, lossCount := 0, heard := false,
    fallbackFlag := false, fallbackArmed := false, pendingConfig := none, counters := UplinkCounters.zero }

/-- The management processor and the uplink transmitter after power-on (R183). -/
def Management.reset : Management :=
  { requests := [], replies := [], alarms := [], events := [], pendingLoss := 0, meterSlot := none, frameCount := 0,
    lane := .free, blocksDue := [], gathered := [], counters := MgmtCounters.zero }

/-- The mode and store unit of a part whose store has never been written (R186, R189). -/
def Device.reset : Device :=
  { mode := .setup, store := .empty, completed := 0, resetState := .idle, resets := 0 }

/-- The part in its first sample period after power-on, its store never written (R11, R189): block period 0 plays
silence as an underrun with N then 1 (R111, R121), its first sample period in SETUP has given every record channel 0
(R53, R108) and has been noted as a SETUP period (R162). Every other field is its block's power-on value. -/
def State.reset : State :=
  { pending := [], powered := true, free := 0, gen := FrameGen.reset, boundary := Boundary.none,
    clock := ClockUnit.reset, links := Vector.replicate 8 Link.reset,
    uplink := { UplinkRx.reset with nextPlay := 1, counters := { UplinkCounters.zero with underruns := 1 } },
    engine := Engine.reset, surfaces := Vector.replicate 4 Surface.reset, rules := RuleUnit.reset,
    meter := { MeterUnit.reset with setupSeen := true },
    mgmt := { Management.reset with gathered := [List.replicate 256 0] }, device := Device.reset }

end Sys2Proof.Machine
end

