-- ==== Sys2Proof/Machine/Operands.lean ====
section
/-! DEFINITION. How the part reads its operands: slot numbers and presence (R1 to R6), the ranges of request fields (R18,
R191 to R193), sample containers (R12, R13), surface values (R123), ramp lengths (R39) and the codes of named values. -/

namespace Sys2Proof.Machine

/-! ### Request fields -/

/-- A source or destination number, 0–527 (R2). -/
def slotOf (n : Nat) : Option Slot :=
  if h : n < 528 then some ⟨n, h⟩ else none

/-- A converter link number, 0–7 (R74). -/
def linkOf (n : Nat) : Option (Fin 8) :=
  if h : n < 8 then some ⟨n, h⟩ else none

/-- A surface link number, 0–3 (R131). -/
def surfaceOf (n : Nat) : Option (Fin 4) :=
  if h : n < 4 then some ⟨n, h⟩ else none

/-- A ramp code, 0–7 (R18). -/
def rampOf (n : Nat) : Option RampCode :=
  if h : n < 8 then some ⟨n, h⟩ else none

/-- A yes/no field: 0 for no, 1 for yes (R191). -/
def yesNoOf (n : Nat) : Option Bool :=
  if n = 0 then some false else if n = 1 then some true else none

/-- The coefficient range (R38). -/
def coeffInRange (x : Int) : Bool := decide (-8388608 ≤ x ∧ x ≤ 8388607)

/-- A coefficient field (R18). -/
def coeffOf (x : Int) : Option Int :=
  if coeffInRange x then some x else none

/-- The number, where it lies in `lo`–`hi`. -/
def within (lo hi n : Nat) : Option Nat :=
  if lo ≤ n ∧ n ≤ hi then some n else none

def familyOf (n : Nat) : Option Family :=
  if n = 0 then some .k48 else if n = 1 then some .k44 else none

def multOf (n : Nat) : Option Mult :=
  if n = 0 then some .x1 else if n = 1 then some .x2 else if n = 2 then some .x4 else none

def recoveryOf (n : Nat) : Option Recovery :=
  if n = 0 then some .auto else if n = 1 then some .manual else if n = 2 then some .park else none

/-- A candidate code (R193): LINK n is n, WORDCLOCK 8, INTERNAL 9. -/
def referenceOf (n : Nat) : Option Reference :=
  if h : n < 8 then some (.link ⟨n, h⟩) else if n = 8 then some .wordclock else if n = 9 then some .internal else none

def tapOf (n : Nat) : Option Tap :=
  if n = 0 then some .source else if n = 1 then some .destination else none

/-- A kind set byte (R193): bit k stands for the inbound kind whose surface code is k; only POSITION 1, TOUCH 2, PRESS 3
and TURN 4 may be named (R140). -/
def kindsOf (n : Nat) : Option (List MessageKind) :=
  if n < 256 ∧ n / 32 = 0 ∧ n % 2 = 0 then
    some ((if n / 2 % 2 = 1 then [MessageKind.position] else []) ++ (if n / 4 % 2 = 1 then [MessageKind.touch] else []) ++
      (if n / 8 % 2 = 1 then [MessageKind.press] else []) ++ (if n / 16 % 2 = 1 then [MessageKind.turn] else []))
  else none

/-- Every entry of the list read, or `none` where one cannot be. -/
def readEach {α β : Type} (f : α → Option β) : List α → Option (List β)
  | [] => some []
  | x :: xs => match f x, readEach f xs with
    | some y, some ys => some (y :: ys)
    | _, _ => none

/-! ### Slots and presence -/

/-- What a slot number names (R1). -/
inductive SlotKind where
  | converter (link : Fin 8) (slot : Nat)
  | uplink (channel : Nat)
  | bus (bus : Nat)
deriving DecidableEq, Repr

/-- The decoding of a slot number (R1). -/
def slotKind (n : Slot) : SlotKind :=
  if h : n.val < 256 then .converter ⟨n.val / 32, by omega⟩ (n.val % 32)
  else if n.val < 512 then .uplink (n.val - 256)
  else .bus (n.val - 512)

/-- Slots per converter link at a multiplier (R3). -/
def slotsPerLink : Mult → Nat
  | .x1 => 32
  | .x2 => 16
  | .x4 => 8

/-- The uplink channel maximum at a multiplier (R4). -/
def maxChannels : Mult → Nat
  | .x1 => 256
  | .x2 => 128
  | .x4 => 64

/-- Presence as a source (R3, R4). -/
def presentSource (g : FrameGen) (n : Slot) : Bool :=
  match slotKind n with
  | .converter _ slot => decide (slot < slotsPerLink g.rate.mult)
  | .uplink channel => decide (channel < g.playback)
  | .bus _ => true

/-- Presence as a destination (R3, R4). -/
def presentDestination (g : FrameGen) (n : Slot) : Bool :=
  match slotKind n with
  | .converter _ slot => decide (slot < slotsPerLink g.rate.mult)
  | .uplink channel => decide (channel < g.records)
  | .bus _ => true

/-- A record's liveness in the sample period in progress (R6). -/
def live (g : FrameGen) (r : Crosspoint) : Bool :=
  decide (g.periodMode = .operate) && presentSource g r.source && presentDestination g r.destination

/-! ### Ramps -/

/-- The length a ramp code names, in sample periods (R39). -/
def rampLength (c : RampCode) : Nat :=
  if c = 0 then 1 else 8 * 2 ^ c.val

/-- The effective target (R40). -/
def effectiveTarget (r : Crosspoint) : Int :=
  if r.muted then 0 else r.setGain

/-- A record as it joins the table by commit, autostart or fallback install (R17, R33). -/
def joinRecord (e : PatchEntry) : Crosspoint :=
  { source := e.source, destination := e.destination, setGain := e.setGain, muted := e.muted, ramp := e.ramp,
    current := 0, remaining := rampLength e.ramp, owner := none, automation := none }

/-! ### Containers and surface values -/

/-- The sample a received container carries: its upper 24 bits, signed (R13). -/
def sampleOf (c : BitVec 32) : Int := c.toInt / 256

/-- The container of a sample that is sent (R12). -/
def containerOf (y : Int) : BitVec 32 := BitVec.ofInt 32 (y * 256)

/-- POSITION as handed on (R123). -/
def positionValue (v : Nat) : Nat := min v 1023

/-- TOUCH and PRESS as handed on (R123): 1 if the field is not 0. -/
def pressedValue (v : Nat) : Nat := if v = 0 then 0 else 1

/-- TURN as handed on (R123). -/
def turnValue (v : Int) : Int := saturate (-64) 63 v

end Sys2Proof.Machine
end

