-- ==== Sys2Proof/Machine/Flags.lean ====
section
/-! DEFINITION. The computations that set flags and judge values: rounding, saturation and the clip flag of the mix (R51,
R52), a converter link's error counter and DEGRADED flag (R69, R71), the deviation and tolerance of a clock window (R91),
the deadband (R143), the fader law and the nudge (R158, R159), magnitudes and meter segments (R162, R166). -/

namespace Sys2Proof.Machine

/-- The mix's rounding: the floor of (acc + 524,288) ÷ 1,048,576 (R51). -/
def roundMix (acc : Int) : Int := (acc + 524288) / 1048576

/-- The sample range (R52). -/
def sampleMin : Int := -8388608
def sampleMax : Int := 8388607

/-- The y of a destination: rounded once and saturated once (R51, R52). -/
def mixValue (acc : Int) : Int := saturate sampleMin sampleMax (roundMix acc)

/-- The clip flag: saturation changed y (R52). -/
def mixClips (acc : Int) : Bool := decide (mixValue acc ≠ roundMix acc)

/-- One ramp step (R43). -/
def rampStep (r : Crosspoint) : Crosspoint :=
  if r.remaining = 0 then r
  else
    { r with
      current := r.current + (effectiveTarget r - r.current).tdiv r.remaining
      remaining := r.remaining - 1 }

/-- The record after a write that may have changed its effective target: the ramp restarts with the governing code where
it has (R40, R41). -/
def retarget (code : RampCode) (before after : Crosspoint) : Crosspoint :=
  if effectiveTarget after = effectiveTarget before then after
  else { after with remaining := rampLength code }

/-! ### Converter links -/

/-- The error counter after 8 more: left at 255 where they would pass it (R69). -/
def errorsAfterTrouble (errors : Nat) : Nat := if 255 < errors + 8 then 255 else errors + 8

/-- The addition of 8 would take the counter past 255 (R69). -/
def errorOverflow (errors : Nat) : Bool := decide (255 < errors + 8)

/-- DEGRADED after a judgement that leaves the error counter at `errors` (R71). -/
def degradedAfter (degraded : Bool) (errors : Nat) : Bool :=
  if degraded then decide (64 ≤ errors) else decide (96 ≤ errors)

/-! ### The clock unit -/

/-- Nominal local ticks of a sample period (R86). -/
def nominalTicks : Mult → Nat
  | .x1 => 512
  | .x2 => 256
  | .x4 => 128

/-- A reference's period in local ticks from the time `d` between two of its edges: `d` over the whole number of nominal
periods nearest to it, which is one where no edge between them was missed (DESIGN CHOICE, log entry 9). -/
def edgePeriod (mult : Mult) (d : Nat) : Nat :=
  d / max 1 ((2 * d + nominalTicks mult) / (2 * nominalTicks mult))

/-- The whole number of ticks that is `d` but for whole periods of `p` ticks, above half a period and at most one and a half
(R86, log entry 9). -/
def nearOnePeriod (p : Nat) (d : Int) : Int := d + (3 * p - 2 * d) / (2 * p) * p

/-- The nominal count N of a window of 64 periods (R91). -/
def nominalWindow (m : Mult) : Nat := 64 * nominalTicks m

/-- The deviation of a window of m local ticks, in ppm, truncated toward zero (R91). -/
def windowDeviation (mult : Mult) (m : Nat) : Int :=
  (((nominalWindow mult : Int) - m) * 1000000).tdiv (nominalWindow mult)

/-- The window is in tolerance (R91). -/
def inTolerance (tolerance : Nat) (dev : Int) : Bool := decide (dev.natAbs ≤ tolerance)

/-- The qualification state after a completed window (R93). -/
def qualify (inTol : Bool) : Qualification → Qualification
  | .unqualified => if inTol then .qualifying else .unqualified
  | .qualifying => if inTol then .qualified else .unqualified
  | .qualified => if inTol then .qualified else .unqualified

/-- The model's unit of local time: 3,612,672 units are 1 ms in both families, so that a tick of 24,576,000 Hz is 147
units and a tick of 22,579,200 Hz is 160 (R86). -/
def timePerMs : Nat := 3612672

/-- Local ticks of a family in units of local time (R86). -/
def ticksToTime : Family → Nat → Nat
  | .k48, n => 147 * n
  | .k44, n => 160 * n

/-! ### Rules -/

/-- The deadband passes a position (R143). -/
def deadbandPasses (deadband : Nat) (last : Option Nat) (v : Nat) : Bool :=
  match last with
  | none => true
  | some p => decide (deadband ≤ max v p - min v p ∨ v = 0 ∨ v = 1023)

/-- The fader law's coefficient for a position (R158). -/
def lawCoefficient (law : Vector Int 129) (p : Nat) : Int :=
  let i := p / 8
  let low := law[i]?.getD 0
  let high := law[i + 1]?.getD 0
  low + ((high - low) * ((p % 8 : Nat) : Int)).tdiv 8

/-- The nudge of NUDGE_GAIN (R159). -/
def nudge (setGain turn : Int) (step : Nat) : Int :=
  saturate (-8388608) 8388607 (setGain + turn * step)

/-! ### Meters -/

/-- The segment of a peak: the number of thresholds at or below it (R166). -/
def segment (thresholds : Vector Nat 16) (peak : Nat) : Nat :=
  (thresholds.toList.filter (· ≤ peak)).length

/-- The table is non-decreasing and within range (R166). -/
def thresholdsOk (l : List Nat) : Bool :=
  decide (l.length = 16) && l.all (· ≤ 8388608) && (l.zip l.tail).all (fun p => decide (p.1 ≤ p.2))

end Sys2Proof.Machine
end

