-- ==== Sys2Proof/Machine/Ops.lean ====
section
/-! DEFINITION. The operations the blocks share: updates of one block of State, the stamp, the patch table and its records
(R15, R27, R40), touch holds (R152), update sets (R129), the alarm, event and reply queues (R172, R174, R175), the budget
(R169) and the taking of a request (R170). -/

namespace Sys2Proof.Machine

/-! ### One block of State at a time -/

def State.onGen (f : FrameGen → FrameGen) (s : State) : State := { s with gen := f s.gen }
def State.onBoundary (f : Boundary → Boundary) (s : State) : State := { s with boundary := f s.boundary }
def State.onClock (f : ClockUnit → ClockUnit) (s : State) : State := { s with clock := f s.clock }
def State.onLink (i : Fin 8) (f : Link → Link) (s : State) : State := { s with links := modifyEntry s.links i f }
def State.onUplink (f : UplinkRx → UplinkRx) (s : State) : State := { s with uplink := f s.uplink }
def State.onEngine (f : Engine → Engine) (s : State) : State := { s with engine := f s.engine }
def State.onSurface (i : Fin 4) (f : Surface → Surface) (s : State) : State :=
  { s with surfaces := modifyEntry s.surfaces i f }
def State.onRules (f : RuleUnit → RuleUnit) (s : State) : State := { s with rules := f s.rules }
def State.onMeter (f : MeterUnit → MeterUnit) (s : State) : State := { s with meter := f s.meter }
def State.onMgmt (f : Management → Management) (s : State) : State := { s with mgmt := f s.mgmt }
def State.onDevice (f : Device → Device) (s : State) : State := { s with device := f s.device }

/-- The numbers of the converter links, in order. -/
def linkNumbers : List (Fin 8) := [0, 1, 2, 3, 4, 5, 6, 7]

/-- The numbers of the surface links, in order. -/
def surfaceNumbers : List (Fin 4) := [0, 1, 2, 3]

/-- The effect of a step of the block boundary while the part has power; without power nothing but POWER_ON has an effect
(log entry 2). -/
def run (f : State → State) (s : State) : Host.Outcome State Fault Refusal :=
  .next (if s.powered then f s else s)

/-! ### Stamps -/

/-- The stamp of the sample period in progress; at a block boundary, of the period that begins there (R9). -/
def stampNow (s : State) : Nat :=
  if s.boundary.taken then wrapSucc 4294967296 s.gen.sampleCounter else s.gen.sampleCounter

/-- The local time at which the sample period in progress ends. -/
def periodEnd (s : State) : Nat := s.clock.time + s.clock.periodTime

/-! ### Replies and the budget -/

def Answer.of (st : Status) : Answer := ⟨st, false, .plain⟩
def Answer.ok : Answer := ⟨.ok, false, .plain⟩
def Answer.okData (d : ReplyData) : Answer := ⟨.ok, false, d⟩
/-- OK, with the HELD indicator where `held` (R19). -/
def Answer.okHeld (held : Bool) : Answer := ⟨.ok, held, .plain⟩
def Answer.range : Answer := ⟨.range, false, .plain⟩

/-- A reply at the end of the reply queue (R170, R173). -/
def pushReply (tag kind : Byte) (a : Answer) (s : State) : State :=
  s.onMgmt fun m => { m with replies := m.replies ++ [⟨tag, kind, a⟩] }

/-- The command relay has a command in flight (R79). -/
def Relay.busy : Relay → Bool
  | .idle => false
  | .sending _ _ => true
  | .awaiting _ _ _ => true

/-- The frame on the lane is a reply, which keeps its place until the frame's end (R172). -/
def Lane.holdsPlace : Lane → Bool
  | .message (.reply _) => true
  | _ => false

def Store.busy : Store → Bool
  | .writing _ _ _ => true
  | _ => false

/-- The requests taken and not yet answered: a commit, converter commands and a store write (R173). -/
def inFlight (s : State) : Nat :=
  s.engine.commit.isSome.toNat + (s.links.toList.filter (fun l => l.relay.busy)).length + s.device.store.busy.toNat

/-- The places in use (R169). -/
def placesInUse (s : State) : Nat :=
  s.mgmt.requests.length + inFlight s + s.mgmt.replies.length + s.mgmt.lane.holdsPlace.toNat

/-- What an owner does with a request: the state after it and its answer, `none` where the answer comes when the work
ends (R173). -/
abbrev Owner := State → State × Option Answer

/-- The owner acts and its reply, if it gives one, is placed (R170): behind the ABORTED reply of a command that the request
ends (R82; DESIGN CHOICE, log entry 35). -/
def answer (tag kind : Byte) (owner : Owner) (s : State) : State :=
  match owner s with
  | (s', some a) => pushReply tag kind a s'
  | (s', none) => s'

/-- An owner that answers at the taking. -/
def owned (f : State → State × Answer) : Owner := fun s => ((f s).1, some (f s).2)

/-- An owner that only reports. -/
def reports (f : State → Answer) : Owner := fun s => (s, some (f s))

/-! ### Alarms (R174) -/

def Alarm.key : Alarm → AlarmKey
  | .linkState n _ _ _ _ _ _ => .link n
  | .surfaceState n _ _ _ _ => .surface n
  | .clockState _ _ _ _ _ => .clock
  | .uplink _ _ _ _ _ _ _ => .uplink
  | .store _ _ _ _ => .store

/-- The alarm queue after a posting: an entry under the same key is replaced in place, its superseded count raised. -/
def queueAlarm (a : Alarm) (q : List AlarmEntry) : List AlarmEntry :=
  if q.any (fun e => e.alarm.key = a.key) then
    q.map fun e => if e.alarm.key = a.key then ⟨a, bump 255 e.superseded⟩ else e
  else q ++ [⟨a, 0⟩]

/-- Post an alarm (R174). -/
def postAlarm (a : Alarm) (s : State) : State :=
  s.onMgmt fun m =>
    { m with
      alarms := queueAlarm a m.alarms
      counters := if m.alarms.any (fun e => e.alarm.key = a.key)
        then { m.counters with superseded := bump32 m.counters.superseded } else m.counters }

/-- The LINK_STATE alarm of a link as it stands (R83). -/
def postLinkAlarm (i : Fin 8) (s : State) : State :=
  let l := s.links[i]
  postAlarm (.linkState i l.state l.degraded l.pause l.errors (if l.state = .fault then l.reason else none) (stampNow s)) s

/-! ### Surface events (R175) -/

/-- Place a SURFACE_EVENT in the event queue, or count it as lost when the queue holds 128. -/
def postEvent (e : SurfaceEvent) (s : State) : State :=
  s.onMgmt fun m =>
    if m.events.length < 128 then
      { m with events := m.events ++ [e], counters := { m.counters with eventsQueued := bump32 m.counters.eventsQueued } }
    else
      { m with
        pendingLoss := bump 65535 m.pendingLoss
        counters := { m.counters with eventsLost := bump32 m.counters.eventsLost } }

/-! ### Update sets (R129) -/

/-- What became of an update offered to a set. -/
inductive Offer where
  | replaced
  | appended
  | dropped
deriving DecidableEq, Repr

/-- An update set after an offer (R129). -/
def placeUpdate (kind : UpdateKind) (address value : Nat) (set : List Update) : List Update × Offer :=
  if set.any (fun u => u.kind = kind ∧ u.address = address) then
    (set.map fun u => if u.kind = kind ∧ u.address = address then { u with value := value } else u, .replaced)
  else if set.length < 32 then (set ++ [⟨kind, address, value, 0⟩], .appended)
  else (set, .dropped)

/-- A surface link after an offer taken while it is ONLINE (R129). -/
def Surface.offered (kind : UpdateKind) (address value : Nat) (f : Surface) : Surface :=
  match placeUpdate kind address value f.updates with
  | (set, .dropped) => { f with updates := set, counters := { f.counters with overflow := bump32 f.counters.overflow } }
  | (set, _) => { f with updates := set }

/-- Offer an update; a link that is not ONLINE is skipped (R150, R167). -/
def offerUpdate (link : Fin 4) (kind : UpdateKind) (address value : Nat) (s : State) : State :=
  if s.surfaces[link].state = .online then s.onSurface link (Surface.offered kind address value) else s

/-! ### The patch table (R15) -/

/-- The record of a pair. -/
def Crosspoint.is (r : Crosspoint) (src dst : Slot) : Bool := decide (r.source = src ∧ r.destination = dst)

def findRecord (table : List Crosspoint) (src dst : Slot) : Option Crosspoint :=
  table.find? (·.is src dst)

/-- The table with `f` applied to the record of a pair. -/
def updateRecord (src dst : Slot) (f : Crosspoint → Crosspoint) (table : List Crosspoint) : List Crosspoint :=
  table.map fun r => if r.is src dst then f r else r

/-- Table order: destination ascending, then source ascending (R15). -/
def Crosspoint.before (a b : Crosspoint) : Bool :=
  decide (a.destination < b.destination ∨ (a.destination = b.destination ∧ a.source < b.source))

/-- A record put into the table at its sorted place (R33). -/
def insertRecord (r : Crosspoint) : List Crosspoint → List Crosspoint
  | [] => [r]
  | x :: xs => if r.before x then r :: x :: xs else x :: insertRecord r xs

/-- A record taken out of the table (R33). -/
def eraseRecord (src dst : Slot) (table : List Crosspoint) : List Crosspoint :=
  table.filter fun r => !r.is src dst

def Edit.source : Edit → Slot
  | .add e => e.source
  | .remove src _ => src

def Edit.destination : Edit → Slot
  | .add e => e.destination
  | .remove _ dst => dst

def Edit.is (e : Edit) (src dst : Slot) : Bool := decide (e.source = src ∧ e.destination = dst)

/-- The change list's edit of a pair (R25). -/
def findEdit (edits : List Edit) (src dst : Slot) : Option Edit :=
  edits.find? (·.is src dst)

/-! ### Touch holds (R152) -/

/-- The record after its hold is released: an automation gain becomes the set gain under its own code. -/
def releaseHold (r : Crosspoint) : Crosspoint :=
  match r.automation with
  | some (gain, code) => retarget code r { r with setGain := gain, owner := none, automation := none }
  | none => { r with owner := none }

/-- The records a surface link holds. -/
def holdsOf (link : Fin 4) (table : List Crosspoint) : Nat :=
  (table.filter fun r => decide (r.owner = some link)).length

/-- Every hold of a link released (R153). -/
def releaseOwner (link : Fin 4) (table : List Crosspoint) : List Crosspoint :=
  table.map fun r => if r.owner = some link then releaseHold r else r

/-- Every hold released (R153). -/
def releaseAll (table : List Crosspoint) : List Crosspoint :=
  table.map fun r => if r.owner.isSome then releaseHold r else r

/-! ### Valid downstream frames and requests -/

/-- Post an UPLINK alarm (R120). -/
def postUplinkAlarm (kind : UplinkAlarmKind) (fallback : Option Bool) (s : State) : State :=
  postAlarm (.uplink kind s.uplink.state s.gen.blockNumber s.gen.blockStamp s.uplink.ring.length
    s.uplink.counters.underruns fallback) s

/-- The loss count has reached 32 and the uplink is still to enter LOST (R117). -/
def lossDue (s : State) : Bool := decide (s.uplink.state = .up ∧ 32 ≤ s.uplink.lossCount)

/-- UPLINK_LOSS, where it is due: the uplink enters LOST, with an alarm and a fallback decision due at the next block
boundary (R117). -/
def loseUplink (s : State) : State :=
  if lossDue s then
    postUplinkAlarm .lost none (s.onUplink fun u =>
      { u with
        state := .lost, fallbackArmed := true
        counters := { u.counters with losses := bump32 u.counters.losses } })
  else s

/-- A valid downstream frame restarts the loss count; while the uplink is LOST it first returns it to UP, with a RETURN
alarm that carries the fallback flag, which is then cleared (R110, R117, R119). -/
def hearFrame (s : State) : State :=
  let s1 := s.onUplink fun u => { u with state := .up, lossCount := 0, heard := true }
  if s.uplink.state = .lost then
    (postUplinkAlarm .returned (some s.uplink.fallbackFlag) s1).onUplink fun u => { u with fallbackFlag := false }
  else s1

/-- The requests-received counter, and the dropped counter where no place is free (R169). -/
def countRequest (dropped : Bool) (s : State) : State :=
  s.onMgmt fun m =>
    { m with counters :=
        { m.counters with
          received := bump32 m.counters.received
          dropped := if dropped then bump32 m.counters.dropped else m.counters.dropped } }

/-- The arrival of a valid REQUEST frame: a place is claimed, or the request is discarded (R169). -/
def arriveRequest (r : RequestFrame) (s : State) : State :=
  let s1 := hearFrame s
  if placesInUse s1 < 16 then
    (countRequest false s1).onMgmt fun m => { m with requests := m.requests ++ [r] }
  else countRequest true s1

/-- The request that command `i` takes is taken by its owner (R170). The oldest waiting request is the one taken; a command
for any other request changes nothing. Where no request waits, the command stands for the arrival of its request and the
taking that follows it (log entry 3). -/
def takeRequest (i : Instr) (tag kind : Byte) (owner : Owner) (s : State) : State :=
  match s.mgmt.requests with
  | [] =>
    let s1 := hearFrame s
    if placesInUse s1 < 16 then answer tag kind owner (countRequest false s1) else countRequest true s1
  | r :: rest =>
    if decodeRequest r = i then answer tag kind owner (s.onMgmt fun m => { m with requests := rest }) else s

end Sys2Proof.Machine
end

