-- ==== Sys2Proof/Machine/Clock.lean ====
section
/-! DEFINITION. The clock unit: candidates and their measurement, qualification, lock states, the length of a sample period,
the clock requests and the word clock outputs (05_the_studio_clock.md, R86 to R107). -/

namespace Sys2Proof.Machine

/-! ### Candidates -/

def findCandidate (c : ClockUnit) (ref : Reference) : Option Candidate :=
  c.candidates.find? fun k => decide (k.ref = ref)

/-- The list with `f` applied to a candidate. -/
def ClockUnit.onCandidate (ref : Reference) (f : Candidate → Candidate) (c : ClockUnit) : ClockUnit :=
  { c with candidates := c.candidates.map fun k => if k.ref = ref then f k else k }

/-- The eligible candidates, in list order: those that stand before INTERNAL, or all when it is not on the list (R88). -/
def eligibleRefs (c : ClockUnit) : List Reference :=
  (c.candidates.map (·.ref)).takeWhile fun r => decide (r ≠ .internal)

/-- The best candidate: the first in list order that is eligible and QUALIFIED (R94). -/
def bestCandidate (c : ClockUnit) : Option Candidate :=
  c.candidates.find? fun k => decide (k.ref ∈ eligibleRefs c ∧ k.qualification = .qualified)

/-- The link is in ALIGN, ACTIVE or PAUSED: it keeps receive windows and can supply edges (R60, R89). -/
def LinkState.receives : LinkState → Bool
  | .align => true
  | .active => true
  | .paused => true
  | .off => false
  | .fault => false

/-- The reference can supply edges (R89). INTERNAL is not measured. -/
def selectable (s : State) : Reference → Bool
  | .wordclock => true
  | .link n => s.links[n].state.receives
  | .internal => false

/-! ### Lock states -/

/-- The reference a CLOCK_STATE alarm and CLOCK_STATUS name: the selected one in PULL_IN and LOCKED, the lost one in
HOLDOVER (R105). -/
def namedReference (c : ClockUnit) : Option Reference :=
  match c.lock with
  | .free => none
  | .pullIn => c.selected
  | .locked => c.selected
  | .holdover => c.lost

/-- Post a CLOCK_STATE alarm (R105). -/
def postClockAlarm (s : State) : State :=
  postAlarm (.clockState s.clock.lock (namedReference s.clock) s.gen.rate
    (if s.clock.lock = .free then none else s.clock.heldDeviation) (stampNow s)) s

/-- Entry to PULL_IN toward a candidate (R96). -/
def enterPullIn (k : Candidate) (s : State) : State :=
  postClockAlarm (s.onClock fun c =>
    { c with
      lock := .pullIn, selected := some k.ref, lost := none, heldDeviation := k.deviation, holdCount := k.goodCount,
      holdStart := none, pullInCount := 0, entryLength := c.periodTicks,
      counters := { c.counters with selections := bump32 c.counters.selections } })

/-- The selected reference's period in local ticks: that of its two latest edges, or m div 64 before two edges of it are
known (DESIGN CHOICE, log entry 9). -/
def referencePeriod (c : ClockUnit) : Nat :=
  match c.selected.bind (findCandidate c) with
  | some k => k.interval.getD (c.holdCount.getD 0 / 64)
  | none => c.holdCount.getD 0 / 64

/-- The local tick of the selected reference's latest edge. -/
def latestEdge (c : ClockUnit) : Option Nat :=
  ((c.selected.bind (findCandidate c)).bind (·.window)).map (·.latest)

/-- The offset from the reference's edges at which sample periods start that are one period of the reference long from the
end of the period in progress on: the time from the latest edge to that end and one period more, so that the edge a period's
length is taken from is known when the period starts (DEDUCED from R86 and R87, log entry 9). -/
def offsetAtLock (c : ClockUnit) : Int :=
  match latestEdge c with
  | some e => (c.ticks : Int) + c.periodTicks + referencePeriod c - e
  | none => 0

/-- Entry to LOCKED, with its offset from the reference edges (R86, R96). -/
def enterLocked (s : State) : State :=
  postClockAlarm (s.onClock fun c => { c with lock := .locked, lockOffset := offsetAtLock c })

/-- Entry to HOLDOVER: the selected candidate is lost (R98). -/
def enterHoldover (s : State) : State :=
  postClockAlarm (s.onClock fun c =>
    { c with
      lock := .holdover, lost := c.selected, selected := none, holdStart := some c.time, runPeriods := 0, runLong := 0,
      counters := { c.counters with holdovers := bump32 c.counters.holdovers } })

/-- The fall to FREE at the holdover limit (R99). -/
def expireHoldover (s : State) : State :=
  postClockAlarm (s.onClock fun c =>
    { c with
      lock := .free, selected := none, lost := none, heldDeviation := none, holdCount := none, holdStart := none,
      counters := { c.counters with expiries := bump32 c.counters.expiries } })

/-- The candidate is followed: selected in PULL_IN or LOCKED. -/
def follows (c : ClockUnit) (ref : Reference) : Bool :=
  decide ((c.lock = .pullIn ∨ c.lock = .locked) ∧ c.selected = some ref)

/-- The candidate ranks before the selected one in the list (R97). -/
def ranksBefore (c : ClockUnit) (k : Candidate) : Bool :=
  match c.selected with
  | none => true
  | some sel => decide ((c.candidates.map (·.ref)).idxOf k.ref < (c.candidates.map (·.ref)).idxOf sel)

/-- The clock unit looks for the best candidate (R94): in FREE and HOLDOVER it is taken (R95, R99), in LOCKED with REVERT
set it is taken where it ranks before the selected one (R97); PULL_IN does not look. -/
def look (s : State) : State :=
  match bestCandidate s.clock with
  | none => s
  | some k =>
    match s.clock.lock with
    | .free => enterPullIn k s
    | .holdover => enterPullIn k s
    | .locked => if s.clock.revert && ranksBefore s.clock k then enterPullIn k s else s
    | .pullIn => s

/-! ### Measurement -/

/-- What a completed window of m ticks leaves of its candidate (R91, R93). -/
def Candidate.judged (mult : Mult) (tolerance m : Nat) (k : Candidate) : Candidate :=
  let dev := windowDeviation mult m
  let good := inTolerance tolerance dev
  { k with
    qualification := qualify good k.qualification
    deviation := some dev
    goodCount := if good then some m else k.goodCount }

/-- A window of m ticks of a candidate completes: it is judged, then the lock state acts on the event (R91, R93 to R99). In
HOLDOVER the best candidate is taken at the completion of any candidate's window, a candidate that was already QUALIFIED
when the selected one was lost too: R94 looks at each completion of any candidate, where R99 names that candidate's own
next one (DESIGN CHOICE, log entry 40). -/
def completeWindow (ref : Reference) (m : Nat) (s : State) : State :=
  let dev := windowDeviation s.gen.rate.mult m
  let good := inTolerance s.clock.tolerance dev
  let followed := follows s.clock ref
  let s1 := s.onClock fun c =>
    { c.onCandidate ref (Candidate.judged s.gen.rate.mult s.clock.tolerance m) with
      heldDeviation := if c.selected = some ref ∨ c.lost = some ref then some dev else c.heldDeviation
      holdCount := if followed ∧ good then some m else c.holdCount
      counters := if good then c.counters else { c.counters with outOfTolerance := bump32 c.counters.outOfTolerance } }
  if followed && !good then enterHoldover s1 else look s1

/-- The measurement window at an edge at local tick `t` (R90): a waiting candidate starts a window, the 64th edge after the
starting edge completes it and starts the next. -/
def measureEdge (ref : Reference) (t : Nat) (s : State) : State :=
  match findCandidate s.clock ref with
  | none => s
  | some k =>
    match k.window with
    | none => s.onClock (ClockUnit.onCandidate ref fun k => { k with window := some ⟨0, t, t⟩ })
    | some w =>
      if w.edges + 1 < 64 then
        s.onClock (ClockUnit.onCandidate ref fun k =>
          { k with window := some ⟨w.edges + 1, w.start, t⟩, interval := some (edgePeriod s.gen.rate.mult (t - w.latest)) })
      else
        completeWindow ref (t - w.start) (s.onClock (ClockUnit.onCandidate ref fun k =>
          { k with window := some ⟨0, t, t⟩, interval := some (edgePeriod s.gen.rate.mult (t - w.latest)) }))

/-- One more in the pull-in count, held at 256 (R96). -/
def countPullIn (s : State) : State :=
  s.onClock fun c => { c with pullInCount := bump 256 c.pullInCount }

/-- PULL_IN_COUNT: LOCKED when the count has reached 256 (R96). -/
def finishPullIn (s : State) : State :=
  if s.clock.lock = .pullIn ∧ 256 ≤ s.clock.pullInCount then enterLocked s else s

/-- A candidate becomes UNQUALIFIED and waiting, its window discarded; if it is followed the unit enters HOLDOVER (R89,
R92, R96, R97). -/
def disqualify (ref : Reference) (s : State) : State :=
  let s1 := s.onClock (ClockUnit.onCandidate ref fun k => { k with qualification := .unqualified, window := none })
  if follows s.clock ref then enterHoldover s1 else s1

/-- The local tick at which four nominal sample periods have passed since the latest edge of a candidate whose window is in
progress (R92). -/
def lossTick (ref : Reference) (s : State) : Option Nat :=
  ((findCandidate s.clock ref).bind (·.window)).map fun w => w.latest + 4 * nominalTicks s.gen.rate.mult

/-- Edge loss (R92). -/
def loseReference (ref : Reference) (s : State) : State :=
  disqualify ref (s.onClock fun c =>
    { c with counters := { c.counters with edgeLosses := bump32 c.counters.edgeLosses } })

/-- Four nominal sample periods pass without an edge by the end of the sample period in progress (R92). -/
def edgeLossDue (ref : Reference) (s : State) : Bool :=
  (lossTick ref s).any fun t => decide (t ≤ s.clock.ticks + s.clock.periodTicks)

/-- EDGE_LOSS, where it is due (R92). -/
def loseEdges (ref : Reference) (s : State) : State :=
  if edgeLossDue ref s then loseReference ref s else s

/-- What a candidate's edge at local tick `t` finds: edge loss has occurred where four nominal sample periods passed before
it (R92). An edge at the very tick at which they have passed is a new edge (DESIGN CHOICE, log entry 36). -/
def loseBefore (ref : Reference) (t : Nat) (s : State) : State :=
  if (lossTick ref s).any fun u => decide (u < t) then loseReference ref s else s

/-- An edge of a reference at `phase` ticks into the sample period in progress (R90, R92, R96). Where the edge also counts
toward the pull-in, `countFirst` says which of the two is taken first. -/
def referenceEdge (ref : Reference) (phase : Nat) (countFirst : Bool) (s : State) : State :=
  let t := s.clock.ticks + phase
  let s0 := loseBefore ref t s
  let pulling := decide (s0.clock.lock = .pullIn ∧ s0.clock.selected = some ref)
  if pulling && countFirst then measureEdge ref t (finishPullIn (countPullIn s0))
  else
    let s1 := measureEdge ref t s0
    if pulling && decide (s1.clock.lock = .pullIn) then countPullIn s1 else s1

/-- The holdover limit, in ms, in units of local time. -/
def limitTime (ms : Nat) : Nat := ms * timePerMs

/-- HOLDOVER_EXPIRY, where the timer reaches the limit by the end of the sample period in progress (R99). -/
def expiryStep (s : State) : State :=
  match s.clock.lock, s.clock.holdStart with
  | .holdover, some t => if t + limitTime s.clock.limit ≤ periodEnd s then expireHoldover s else s
  | _, _ => s

/-! ### The length of a sample period (R86) -/

/-- The most edges of a reference with period `p` that fall in one sample period of PULL_IN entered at the length `entry`,
with one edge that comes early: no period of the steering is longer than the longer of the two. -/
def edgesWithin (entry p : Nat) : Nat := max entry p / p + 2

/-- The pull-in count can reach 256 within the sample period that starts, so that it may be the last of PULL_IN: it takes
the reference's own period (R86, log entry 5). -/
def ClockUnit.lastOfPullIn (c : ClockUnit) : Bool :=
  decide (256 ≤ c.pullInCount + edgesWithin c.entryLength (referencePeriod c))

/-- LOCKED: the length of the sample period that starts at local tick `now`. It is one period of the reference: the period
ends, and the next one starts, at the held offset from the latest edge, or from where whole periods of the reference put an
edge that came early, came late or was missed (R86, log entry 9). -/
def lockedLength (c : ClockUnit) (now : Nat) : Nat :=
  match latestEdge c with
  | some e => (nearOnePeriod (referencePeriod c) (e + c.lockOffset - now)).toNat
  | none => referencePeriod c

/-- A length between two bounds, inclusive: any one of them, by the free steering. -/
def steeredLength (a b n : Nat) : Nat :=
  min a b + Config.steering n % (max a b - min a b + 1)

/-- HOLDOVER: the next period of the run takes the longer length; in each run of 64, exactly m mod 64 do. -/
def holdoverLong (m periods long n : Nat) : Bool :=
  if m % 64 ≤ long then false
  else if 64 - periods ≤ m % 64 - long then true
  else Config.longPeriod n

/-- The clock unit as a sample period starts: time has passed, and the period takes the length of its lock state. -/
def ClockUnit.nextPeriod (rate : Rate) (n : Nat) (c : ClockUnit) : ClockUnit :=
  let c1 := { c with ticks := c.ticks + c.periodTicks, time := c.time + c.periodTime }
  let set (len : Nat) (c : ClockUnit) : ClockUnit :=
    { c with periodTicks := len, periodTime := ticksToTime rate.family len }
  match c.lock with
  | .free => set (nominalTicks rate.mult) c1
  | .pullIn =>
    if c.lastOfPullIn then set (referencePeriod c) c1
    else set (steeredLength c.entryLength (referencePeriod c) n) c1
  | .locked => set (lockedLength c c1.ticks) c1
  | .holdover =>
    let m := c.holdCount.getD 0
    let periods := if 64 ≤ c.runPeriods then 0 else c.runPeriods
    let used := if 64 ≤ c.runPeriods then 0 else c.runLong
    let long := holdoverLong m periods used n
    set (m / 64 + long.toNat) { c1 with runPeriods := periods + 1, runLong := used + long.toNat }

/-! ### Word clock outputs (R103, R104) -/

/-- A pending setting is to be latched at the end of the sample period in progress: the output is disabled, or its output
period ends there. -/
def WclkOutput.latchDue (o : WclkOutput) : Bool :=
  o.waiting.isSome && (!o.active.enabled || decide (o.position = some (o.active.divisor - 1)))

/-- The latch: the pending setting becomes active and its output period, if it is enabled, is about to begin. -/
def WclkOutput.latch (o : WclkOutput) : WclkOutput :=
  match o.waiting with
  | some setting => { active := setting, waiting := none, position := none }
  | none => o

/-- WCLK_OUT_LATCH, where it is due (R104). -/
def latchOutput (i : Fin 2) (s : State) : State :=
  s.onClock fun c =>
    { c with outputs := modifyEntry c.outputs i fun o => if o.latchDue then o.latch else o }

/-- The position as a sample period starts (R103). -/
def WclkOutput.advance (o : WclkOutput) : WclkOutput :=
  if o.active.enabled then
    match o.position with
    | none => { o with position := some 0 }
    | some k => { o with position := some (if k + 1 < o.active.divisor then k + 1 else 0) }
  else { o with position := none }

/-- The output level in the first and in the second half of the sample period in progress (R103). -/
def WclkOutput.level (o : WclkOutput) : Bool × Bool :=
  match o.active.enabled, o.position with
  | true, some k =>
    if o.active.divisor = 1 then (!o.active.inverted, o.active.inverted)
    else
      let high := decide (k < o.active.divisor / 2)
      (high ^^ o.active.inverted, high ^^ o.active.inverted)
  | _, _ => (false, false)

/-! ### The requests -/

/-- The fields of CLOCK_CANDIDATES in range (R100): list, tolerance, limit, REVERT. The limit of 1–60 s is a field in ms
(R193), and any whole ms of that range is in it (log entry 19). -/
def readCandidates (b : ClockCandidatesBody) : Option (List Reference × Nat × Nat × Bool) := do
  let refs ← readEach referenceOf b.list
  let tolerance ← within 50 2000 b.tolerance
  let limit ← within 1000 60000 b.limit
  let revert ← yesNoOf b.revert
  if 1 ≤ refs.length ∧ refs.length ≤ 4 ∧ refs.Nodup then return (refs, tolerance, limit, revert) else none

/-- The new list: a candidate on both lists is kept, a new one joins UNQUALIFIED and waiting (R100, step 1). -/
def replaceList (refs : List Reference) (c : ClockUnit) : List Candidate :=
  refs.map fun r => (findCandidate c r).getD (Candidate.joined r)

/-- Step 2 of R100 in HOLDOVER: a timer already at or beyond the new limit expires at once. -/
def applyLimit (s : State) : State :=
  match s.clock.lock, s.clock.holdStart with
  | .holdover, some t => if t + limitTime s.clock.limit ≤ s.clock.time then expireHoldover s else s
  | _, _ => s

/-- Step 3 of R100: a selected candidate that is no longer eligible is lost. -/
def dropIneligible (s : State) : State :=
  match s.clock.selected with
  | none => s
  | some ref =>
    if follows s.clock ref ∧ ref ∉ eligibleRefs s.clock then enterHoldover s else s

/-- CLOCK_CANDIDATES (R100). -/
def ownClockCandidates (body : Option ClockCandidatesBody) (s : State) : State × Answer :=
  match body.bind readCandidates with
  | none => (s, Answer.range)
  | some (refs, tolerance, limit, revert) =>
    let s1 := s.onClock fun c =>
      { c with candidates := replaceList refs c, tolerance := tolerance, limit := limit, revert := revert }
    let s2 := look (dropIneligible (applyLimit s1))
    (s2, Answer.okData (.lockState s2.clock.lock s2.clock.selected))

def readRate (b : ClockRateBody) : Option Rate := do
  let family ← familyOf b.family
  let mult ← multOf b.mult
  return ⟨family, mult⟩

/-- CLOCK_RATE (R101). -/
def ownClockRate (body : Option ClockRateBody) (s : State) : State × Answer :=
  match body.bind readRate with
  | none => (s, Answer.range)
  | some rate =>
    if s.device.mode = .operate then (s, Answer.of .wrongMode)
    else (s.onClock fun c => { c with pendingRate := some rate }, Answer.ok)

/-- The time since a local time, in whole ms: a fraction of a ms is dropped (DESIGN CHOICE, log entry 8). R106, R134 and R186
give such times in ms and say no more. -/
def msSince (s : State) (t : Nat) : Nat := (s.clock.time - t) / timePerMs

/-- One candidate of CLOCK_STATUS (R106). -/
def candidateView (s : State) (k : Candidate) : CandidateView :=
  { ref := k.ref
    measured := if k.ref = .internal then none
      else some (decide (k.ref ∈ eligibleRefs s.clock), selectable s k.ref, k.qualification, k.window.isSome, k.deviation) }

/-- CLOCK_STATUS (R106). In HOLDOVER it names the lost candidate with its last deviation, which R98 asks for and R106's table
gives no item: the deviation is an item of its own, for a lost candidate that is still on the list too (DESIGN CHOICE, log
entry 34). -/
def ownClockStatus (body : Option Unit) (s : State) : Answer :=
  match body with
  | none => Answer.range
  | some _ =>
    let c := s.clock
    let following := decide (c.lock = .pullIn ∨ c.lock = .locked)
    let holding := decide (c.lock = .holdover)
    Answer.okData (.clockStatus
      { lock := c.lock
        selected := if following then c.selected else none
        lost := if holding then c.lost else none
        lostDeviation := if holding then c.heldDeviation else none
        held := if holding then some ((c.holdStart.map (msSince s)).getD 0) else none
        pullInCount := if c.lock = .pullIn then some c.pullInCount else none
        holdCount := if c.lock = .free then none else c.holdCount
        candidates := c.candidates.map (candidateView s)
        tolerance := c.tolerance, limit := c.limit, revert := c.revert, rate := s.gen.rate
        pendingRate := c.pendingRate, blockSize := s.gen.blockSize, position := s.gen.position
        sampleCounter := s.gen.sampleCounter, blockNumber := s.gen.blockNumber
        outputs := c.outputs.toList.map fun o => (o.active, o.waiting) })

/-- WCLK_OUT's fields in range (R104). -/
def readWclk (b : WclkOutBody) : Option (Fin 2 × WclkSetting) := do
  let enabled ← yesNoOf b.enable
  let divisor ← within 1 256 b.divisor
  let inverted ← yesNoOf b.polarity
  if h : b.output < 2 then return (⟨b.output, h⟩, ⟨enabled, divisor, inverted⟩) else none

/-- WCLK_OUT (R104). -/
def ownWclkOut (body : Option WclkOutBody) (s : State) : State × Answer :=
  match body.bind readWclk with
  | none => (s, Answer.range)
  | some (i, setting) =>
    (s.onClock fun c => { c with outputs := modifyEntry c.outputs i fun o => { o with waiting := some setting } },
      Answer.ok)

/-! ### The taking of the requests (R170) -/

def takeClockCandidates (tag : Byte) (body : Option ClockCandidatesBody) : State → State :=
  takeRequest (.clockCandidates tag body) tag 0x50 (owned (ownClockCandidates body))
def takeClockRate (tag : Byte) (body : Option ClockRateBody) : State → State :=
  takeRequest (.clockRate tag body) tag 0x51 (owned (ownClockRate body))
def takeClockStatus (tag : Byte) (body : Option Unit) : State → State :=
  takeRequest (.clockStatus tag body) tag 0x52 (reports (ownClockStatus body))
def takeWclkOut (tag : Byte) (body : Option WclkOutBody) : State → State :=
  takeRequest (.wclkOut tag body) tag 0x53 (owned (ownWclkOut body))

end Sys2Proof.Machine
end

