-- ==== Sys2Proof/Machine/Links.lean ====
section
/-! DEFINITION. The converter link controllers: receive windows and judgements, error counting and concealment, link states,
the command relay, the part's own frames and the link requests (04_converter_links.md, R60 to R85). -/

namespace Sys2Proof.Machine

/-! ### Frame periods -/

/-- The frame period still waits for its judgement. -/
def FramePeriod.unjudged (f : FramePeriod) : Bool :=
  match f.status with
  | .judged _ => false
  | .unstarted => true
  | .started => true

/-- The oldest frame period that waits for its judgement. -/
def Link.oldest (l : Link) : Option FramePeriod := l.frames.find? FramePeriod.unjudged

/-- The window is open at `phase` ticks into a sample period of `ticks` ticks: it runs to a quarter of a sample period
after the end of its own, and a start at the very tick at which that quarter ends still falls in it (R60; DESIGN CHOICE as to
that tick, log entry 38). -/
def FramePeriod.windowOpen (phase ticks : Nat) (f : FramePeriod) : Bool :=
  decide (f.status = .unstarted) && (decide (f.age = 0) || (decide (f.age = 1) && decide (4 * phase ≤ ticks)))

/-- The frame periods with a start assigned to the earliest open window. -/
def startFirst (phase ticks : Nat) : List FramePeriod → List FramePeriod
  | [] => []
  | f :: fs => if f.windowOpen phase ticks then { f with status := .started } :: fs else f :: startFirst phase ticks fs

/-- The frame periods with the oldest waiting one judged. -/
def judgeFirst (p : Presentation) : List FramePeriod → List FramePeriod
  | [] => []
  | f :: fs => if f.unjudged then { f with status := .judged p } :: fs else f :: judgeFirst p fs

/-- The judged frame periods as they will be presented once the link is ACTIVE or not (R62: a change made by a request or
by another block acts from the next sample period). -/
def represent (active : Bool) (f : FramePeriod) : FramePeriod :=
  match f.status with
  | .judged p => { f with status := .judged { p with active := active } }
  | .unstarted => f
  | .started => f

/-! ### State changes -/

/-- The tag of the command in flight. -/
def Relay.tag : Relay → Option Byte
  | .idle => none
  | .sending tag _ => some tag
  | .awaiting tag _ _ => some tag

/-- The command in flight ends with `status` and `data`; the relay returns to IDLE. -/
def endCommand (i : Fin 8) (status : Status) (data : ReplyData) (s : State) : State :=
  match s.links[i].relay.tag with
  | some tag => pushReply tag 0x45 ⟨status, false, data⟩ (s.onLink i fun l => { l with relay := .idle })
  | none => s

/-- An exit from ACTIVE and PAUSED ends the command in flight with ABORTED (R82). -/
def abortCommand (i : Fin 8) (s : State) : State := endCommand i .aborted .plain s

/-- A link as it enters ALIGN (R65): its counts cleared, no reference, no last good frame. Frames not yet judged are judged
in the new ALIGN (R76); the values of judged ones are no longer presented. -/
def Link.aligned (l : Link) : Link :=
  { l with
    state := .align, degraded := false, errors := 0, reference := none, lastGood := Vector.replicate 32 0,
    locked := none, run := 0, missing := 0, goodRun := 0, alignCount := 0, fresh := true,
    frames := l.frames.filter FramePeriod.unjudged, txSequence := if l.state = .off then 0 else l.txSequence }

/-- Entry to ALIGN (R65). -/
def enterAlign (i : Fin 8) (s : State) : State :=
  postLinkAlarm i (abortCommand i (s.onLink i Link.aligned))

/-- A link as it enters OFF (R64): the pause flag, mask, recovery mode and fault reason are kept. -/
def Link.switchedOff (l : Link) : Link :=
  { l with state := .off, degraded := false, errors := 0, fresh := false }

/-- Candidate LINK n becomes unqualified where its link, as it stood in `before`, has left ALIGN, ACTIVE and PAUSED
(R84, R89). -/
def leaveReference (i : Fin 8) (before : LinkState) (s : State) : State :=
  if before.receives && !s.links[i].state.receives then disqualify (.link i) s else s

/-- Entry to OFF (R64). Where the clock unit follows the link it enters HOLDOVER (R84, R97), and the LINK_STATE alarm is queued
before the CLOCK_STATE alarm (DESIGN CHOICE, log entry 35). -/
def enterOff (i : Fin 8) (s : State) : State :=
  leaveReference i s.links[i].state (postLinkAlarm i (abortCommand i (s.onLink i Link.switchedOff)))

/-- Entry to OFF by a request: nothing is presented from the next sample period (R62). -/
def switchOff (i : Fin 8) (s : State) : State :=
  enterOff i (s.onLink i fun l => { l with frames := [] })

/-- PARK: the link goes to OFF with enable cleared (R68). -/
def park (i : Fin 8) (s : State) : State :=
  enterOff i (s.onLink i fun l => { l with enable := false })

/-- A link as it enters FAULT (R68). No window is kept, and what was judged before is still presented (R62). -/
def Link.faulted (reason : FaultReason) (l : Link) : Link :=
  { l with
    state := .fault, reason := some reason, degraded := true, errors := 255, holdOff := 0, fresh := true,
    frames := l.frames.filter fun f => !f.unjudged
    counters := { l.counters with faults := bump32 l.counters.faults } }

/-- Entry to FAULT (R68); under PARK the link goes on to OFF at once. The LINK_STATE alarm is queued before the CLOCK_STATE
alarm of a clock unit that followed the link (R84, R98; DESIGN CHOICE, log entry 35). -/
def enterFault (i : Fin 8) (reason : FaultReason) (s : State) : State :=
  let before := s.links[i].state
  let s1 := leaveReference i before (postLinkAlarm i (abortCommand i (s.onLink i (Link.faulted reason))))
  if s.links[i].recovery = .park then park i s1 else s1

/-- Where an aligned link belongs (R66, R67). -/
def alignedState (mode : Mode) (pause : Bool) : LinkState :=
  if mode = .setup ∨ pause then .paused else .active

/-- The controller moves an aligned link between ACTIVE and PAUSED where its mode and pause flag now ask for it (R67). -/
def moveAligned (i : Fin 8) (s : State) : State :=
  let l := s.links[i]
  let target := alignedState s.device.mode l.pause
  if (l.state = .active ∨ l.state = .paused) ∧ l.state ≠ target then
    postLinkAlarm i (s.onLink i fun l =>
      { l with state := target, frames := l.frames.map (represent (decide (target = .active))) })
  else s

/-! ### Judgements -/

/-- What the controller reads from a frame whose check and length are right (R61). -/
structure RackFrame where
  sequence : Byte
  locked : Bool
  reply : Byte
  samples : Vector Int 32
deriving DecidableEq, Repr

/-- A judgement (R60, R61). -/
inductive Judgement where
  | good (f : RackFrame)
  /-- A sequence break, with the breaking number. -/
  | break_ (sequence : Byte)
  /-- A check that differs, a wrong length, or a frame not wholly received. -/
  | damaged
  | missing
deriving DecidableEq, Repr

def Judgement.isGood : Judgement → Bool
  | .good _ => true
  | .break_ _ => false
  | .damaged => false
  | .missing => false

/-- The fields of a rack's frame (12_frame_and_message_layouts.md, Converter frames); slots the frame does not carry
hold 0. -/
def readRackFrame (bytes : List Byte) : RackFrame :=
  let samples := (containersOf ((bytes.drop 3).dropLast)).map sampleOf
  { sequence := bytes.getD 0 0
    locked := (bytes.getD 1 0).getLsbD 0
    reply := bytes.getD 2 0
    samples := tabulate 32 fun k => samples.getD k 0 }

/-- The judgement of a received frame (R61): length 4n + 4 and the check over all bytes before it, then the sequence. -/
def judgeBytes (mult : Mult) (reference : Option Byte) (bytes : List Byte) : Judgement :=
  if bytes.length = 4 * slotsPerLink mult + 4 ∧ bytes.getLast? = some (check8 bytes.dropLast) then
    let f := readRackFrame bytes
    match reference with
    | none => .good f
    | some r => if f.sequence = r + 1 then .good f else .break_ f.sequence
  else .damaged

/-- The sequence reference after a judgement (R61). Where it is absent there is no number to advance, and it stays absent
(DESIGN CHOICE, log entry 39). -/
def referenceAfter (j : Judgement) (reference : Option Byte) : Option Byte :=
  match j with
  | .good f => some f.sequence
  | .break_ sequence => some sequence
  | .damaged => reference.map (· + 1)
  | .missing => reference.map (· + 1)

/-- The reply period count reaches 256 at the end of the frame period in progress (R81). -/
def timeoutDue (l : Link) : Bool :=
  match l.relay with
  | .awaiting _ count _ => decide (256 ≤ count + 1)
  | .idle => false
  | .sending _ _ => false

/-- The frame to be judged is that of the 256th period counted, judged within that period: the frame of the 255th is the last
that can complete a reply (R81). -/
def Link.lateReply (l : Link) : Bool :=
  timeoutDue l && (match l.oldest with
    | some f => decide (f.age = 0)
    | none => false)

/-- The relay after a judgement (R81): in AWAITING the reply byte of a good frame is read, and a bad or missing frame
discards what was gathered. The second part is the reply where it is complete. A frame too late to complete the reply
(`late`) leaves the relay AWAITING where it would, for the timeout at the end of its period (DEDUCED, log entry 37). -/
def relayAfter (late : Bool) (j : Judgement) (r : Relay) : Relay × Option (List Byte) :=
  match r with
  | .awaiting tag count gathered =>
    match j with
    | .good f =>
      match gathered with
      | none =>
        if f.reply = 0xA0#8 then (r, if late then none else some [])
        else if 0xA1#8 ≤ f.reply ∧ f.reply ≤ 0xA8#8 then
          (.awaiting tag count (some (f.reply.toNat - 0xA0, [])), none)
        else (r, none)
      | some (left, bytes) =>
        if left ≤ 1 then (r, if late then none else some (bytes ++ [f.reply]))
        else (.awaiting tag count (some (left - 1, bytes ++ [f.reply])), none)
    | .break_ _ => (.awaiting tag count none, none)
    | .damaged => (.awaiting tag count none, none)
    | .missing => (.awaiting tag count none, none)
  | .idle => (r, none)
  | .sending _ _ => (r, none)

/-- The counters after a judgement (R69, R83). -/
def LinkCounters.judged (j : Judgement) (c : LinkCounters) : LinkCounters :=
  match j with
  | .good _ => { c with good := bump32 c.good }
  | .break_ _ => { c with bad := bump32 c.bad }
  | .damaged => { c with bad := bump32 c.bad }
  | .missing => { c with missing := bump32 c.missing }

/-- The error counter after a judgement (R69). -/
def errorsAfter (j : Judgement) (errors : Nat) : Nat :=
  if j.isGood then errors - 1 else errorsAfterTrouble errors

/-- How a frame period's values are chosen, by its judgement and the concealment run after it (R72). -/
def choiceOf (j : Judgement) (run : Nat) : Concealment :=
  if j.isGood then .good else if run ≤ 4 then .repeated else .silent

/-- What a judgement leaves of its link, its change of state apart (R61, R65, R69 to R72). -/
def Link.judged (j : Judgement) (l : Link) : Link :=
  let errors := errorsAfter j l.errors
  { l with
    reference := referenceAfter j l.reference
    lastGood := match j with
      | .good f => f.samples
      | _ => l.lastGood
    locked := match j with
      | .good f => some f.locked
      | _ => l.locked
    run := if j.isGood then 0 else bump 255 l.run
    missing := if j = .missing then bump 16 l.missing else 0
    goodRun := if l.state = .align then (if j.isGood then l.goodRun + 1 else 0) else l.goodRun
    errors := errors
    degraded := degradedAfter l.degraded errors
    relay := (relayAfter l.lateReply j l.relay).1
    counters := l.counters.judged j }

/-- The fault a judgement of a link brings, given the link before and after it (R69, R70): MISSING at the 16th consecutive
missing frame, ERRORS where the error counter would pass 255. -/
def faultOf (j : Judgement) (before after : Link) : Option FaultReason :=
  if after.missing = 16 then some .missing
  else if !j.isGood && errorOverflow before.errors then some .errors
  else none

/-- The state a judgement that brings no fault leaves (R66): the eighth consecutive good frame ends ALIGN. -/
def stateAfter (mode : Mode) (l : Link) : LinkState :=
  if l.state = .align ∧ 8 ≤ l.goodRun then alignedState mode l.pause else l.state

/-- The presentation that a judgement gives its frame period (R72), by the link after it. -/
def presentationOf (j : Judgement) (l : Link) : Presentation :=
  let choice := choiceOf j l.run
  { active := decide (l.state = .active)
    choice := choice
    samples := match choice with
      | .silent => Vector.replicate 32 0
      | .good => l.lastGood
      | .repeated => l.lastGood }

/-- The frame periods of a link that has been judged in state `before`: what was judged in ALIGN is never presented, so that
the frame that ends ALIGN is the first that can be (R65, R66, log entry 13). -/
def Link.presentable (before : LinkState) (l : Link) : List FramePeriod :=
  if before = .align then l.frames.filter FramePeriod.unjudged else l.frames

/-- The oldest waiting frame period of a link that receives is judged: counts, reference, relay, then the link's state,
then the values to be presented (R61 to R72, R81). -/
def judge (i : Fin 8) (j : Judgement) (s : State) : State :=
  let before := s.links[i]
  let counted := before.judged j
  let completed := (relayAfter before.lateReply j before.relay).2
  match faultOf j before counted with
  | some reason =>
    enterFault i reason (s.onLink i fun _ =>
      { counted with frames := judgeFirst { presentationOf j counted with active := false } counted.frames })
  | none =>
    let moved := { counted with state := stateAfter s.device.mode counted }
    let after := { moved with frames := judgeFirst (presentationOf j moved) (moved.presentable before.state) }
    let s1 := s.onLink i fun _ => after
    let s2 := match completed with
      | some bytes => endCommand i .ok (.bytes bytes) s1
      | none => s1
    if after.state ≠ before.state ∨ after.degraded ≠ before.degraded then postLinkAlarm i s2 else s2

/-! ### The events of a link -/

/-- A frame start (R60): assigned to the earliest open window, as a reference edge of candidate LINK n (R84), or an extra
start. OFF and FAULT ignore it. -/
def startFrame (i : Fin 8) (phase : Nat) (countFirst : Bool) (s : State) : State :=
  let l := s.links[i]
  if l.state.receives then
    if l.frames.any (FramePeriod.windowOpen phase s.clock.periodTicks) then
      referenceEdge (.link i) phase countFirst
        (s.onLink i fun l => { l with frames := startFirst phase s.clock.periodTicks l.frames })
    else s.onLink i fun l => { l with counters := { l.counters with extra := bump32 l.counters.extra } }
  else s

/-- The oldest waiting frame period has no start and its own sample period is over: its window can close (R60). -/
def missingDue (l : Link) : Bool :=
  l.state.receives && (match l.oldest with
    | some f => decide (f.status = .unstarted ∧ 1 ≤ f.age)
    | none => false)

/-- MISSING_FRAME, where a window can close without a start (R60). -/
def missFrame (i : Fin 8) (s : State) : State :=
  if missingDue s.links[i] then judge i .missing s else s

/-- The oldest waiting frame period has its start. -/
def startedFirst (l : Link) : Bool :=
  l.state.receives && (match l.oldest with
    | some f => decide (f.status = .started)
    | none => false)

/-- CONVERTER_FRAME: the frame of the oldest started frame period has been wholly received and is judged (R61). A window
that closed before it without a start is judged missing first. A frame is judged as soon as it has been wholly received
(R62). -/
def receiveFrame (i : Fin 8) (bytes : List Byte) (s : State) : State :=
  let s1 := if s.links[i].frames.any (fun f => decide (f.status = .started)) then missFrame i s else s
  let l := s1.links[i]
  if startedFirst l then judge i (judgeBytes s1.gen.rate.mult l.reference bytes) s1 else s1

/-- The frame of a started frame period has not been wholly received and its period n + 1 is in progress (R61). -/
def incompleteDue (l : Link) : Bool :=
  startedFirst l && (match l.oldest with
    | some f => decide (1 ≤ f.age)
    | none => false)

/-- FRAME_INCOMPLETE, where it can be due (R61). -/
def loseFrame (i : Fin 8) (s : State) : State :=
  if incompleteDue s.links[i] then judge i .damaged s else s

/-- The ALIGN period count reaches 4096 at the end of the frame period in progress (R66). -/
def noSyncDue (l : Link) : Bool :=
  decide (l.state = .align ∧ l.fresh = false ∧ 4096 ≤ l.alignCount + 1)

/-- NO_SYNC, where it is due (R66). -/
def failAlign (i : Fin 8) (s : State) : State :=
  if noSyncDue s.links[i] then enterFault i .noSync s else s

/-- The hold-off count reaches 2048 under AUTO at the end of the frame period in progress (R68). -/
def holdOffDue (l : Link) : Bool :=
  decide (l.state = .fault ∧ l.recovery = .auto ∧ l.fresh = false ∧ 2048 ≤ l.holdOff + 1)

/-- HOLD_OFF_EXPIRY, where it is due (R68). -/
def expireHoldOff (i : Fin 8) (s : State) : State :=
  if holdOffDue s.links[i] then enterAlign i s else s

/-- COMMAND_TIMEOUT, where it is due (R81). -/
def timeOutCommand (i : Fin 8) (s : State) : State :=
  if timeoutDue s.links[i] then
    endCommand i .timeout .plain
      (s.onLink i fun l => { l with counters := { l.counters with timeouts := bump32 l.counters.timeouts } })
  else s

/-! ### The sample period of a link (R62, R63, R72, R73, R80) -/

/-- The counts at the end of a frame period (R65, R68, R80): the ALIGN period count and the hold-off count leave out the
period of the entry, the reply period count begins after the frame of the last byte. -/
def Link.endPeriod (l : Link) : Link :=
  { l with
    fresh := false
    alignCount := if l.state = .align ∧ l.fresh = false then l.alignCount + 1 else l.alignCount
    holdOff := if l.state = .fault ∧ l.fresh = false then bump 2048 l.holdOff else l.holdOff
    relay := match l.relay with
      | .sending tag [] => .awaiting tag 0 none
      | .awaiting tag count gathered => .awaiting tag (count + 1) gathered
      | .sending tag (b :: rest) => .sending tag (b :: rest)
      | .idle => .idle }

/-- The values presented: those of an active presentation, 0 in a slot that is disabled or not carried (R72, R73). -/
def presentedValues (slots : Nat) (mask : BitVec 32) (p : Presentation) : Vector Int 32 :=
  tabulate 32 fun k => if p.active ∧ k < slots ∧ mask.getLsbD k then p.samples[k]?.getD 0 else 0

/-- The presentation that falls in the sample period that starts: that of the frame period two before (R62). -/
def Link.presentation (l : Link) : Option Presentation :=
  (l.frames.find? fun f => decide (f.age = 2)).bind fun f =>
    match f.status with
    | .judged p => some p
    | .unstarted => none
    | .started => none

/-- One sample period more has begun since the frame period's own. -/
def FramePeriod.grow (f : FramePeriod) : FramePeriod := { f with age := f.age + 1 }

/-- The controller presents its input slots (R62, R72): concealed and silenced frames are counted where it is ACTIVE. -/
def Link.present (slots : Nat) (l : Link) : Link :=
  let aged : Link := { l with frames := l.frames.map FramePeriod.grow }
  let kept := aged.frames.filter fun f => decide (f.age < 2)
  match aged.presentation with
  | none => { aged with frames := kept, presented := Vector.replicate 32 0 }
  | some p =>
    { aged with
      frames := kept
      presented := presentedValues slots l.mask p
      counters :=
        if p.active then
          match p.choice with
          | .good => l.counters
          | .repeated => { l.counters with concealed := bump32 l.counters.concealed }
          | .silent => { l.counters with silenced := bump32 l.counters.silenced }
        else l.counters }

/-- The part's frame of the frame period that starts (R63, R80): `ys` are the y of the link's destinations in the period
before. A relay in SENDING gives the frame its next byte. -/
def Link.sendFrame (rate : Rate) (ys : Nat → Int) (l : Link) : Link :=
  if l.state = .off then { l with txFrame := none }
  else
    let carries := decide (l.state = .active ∨ l.state = .paused)
    let command := match l.relay with
      | .sending _ (b :: _) => if carries then b else 0#8
      | .sending _ [] => 0#8
      | .awaiting _ _ _ => 0#8
      | .idle => 0#8
    { l with
      txFrame := some
        { sequence := l.txSequence, state := l.state, rate := rate, command := command
          slots := (List.range (slotsPerLink rate.mult)).map fun k =>
            if l.state = .active ∧ l.mask.getLsbD k then ys k else 0 }
      txSequence := l.txSequence + 1
      relay := match l.relay with
        | .sending tag (_ :: rest) => if carries then .sending tag rest else l.relay
        | .sending tag [] => .sending tag []
        | .awaiting tag count gathered => .awaiting tag count gathered
        | .idle => .idle }

/-- A receive window opens in ALIGN, ACTIVE and PAUSED (R60). -/
def Link.openWindow (l : Link) : Link :=
  if l.state.receives then { l with frames := l.frames ++ [⟨0, .unstarted⟩] } else l

/-- The sample period of a link starts: its inputs are presented, its frame is sent and its window opens. -/
def startLinkPeriod (i : Fin 8) (s : State) : State :=
  s.onLink i fun l =>
    ((l.present (slotsPerLink s.gen.rate.mult)).sendFrame s.gen.rate
      fun k => (s.engine.outputs)[i.val * 32 + k]?.getD 0).openWindow

/-! ### The requests (R74 to R79) -/

/-- LINK_CONFIG's fields in range (R75). -/
def readLinkFields (b : LinkConfigBody) : Option (Fin 8 × Bool × BitVec 32 × Recovery) := do
  let i ← linkOf b.link
  let enable ← yesNoOf b.enable
  let recovery ← recoveryOf b.recovery
  return (i, enable, b.mask, recovery)

/-- The new recovery mode acts on a link in FAULT at once (R75). -/
def applyRecovery (i : Fin 8) (s : State) : State :=
  match s.links[i].recovery with
  | .park => park i (s.onLink i fun l => { l with frames := [] })
  | .auto => if 2048 ≤ s.links[i].holdOff then enterAlign i s else s
  | .manual => s

/-- LINK_CONFIG (R75). -/
def ownLinkConfig (body : Option LinkConfigBody) (s : State) : State × Answer :=
  match body.bind readLinkFields with
  | none => (s, Answer.range)
  | some (i, enable, mask, recovery) =>
    let s1 := s.onLink i fun l => { l with enable := enable, mask := mask, recovery := recovery }
    let s2 := match s.links[i].state with
      | .off => if enable then enterAlign i s1 else s1
      | .fault => if enable then applyRecovery i s1 else switchOff i s1
      | .align => if enable then s1 else switchOff i s1
      | .active => if enable then s1 else switchOff i s1
      | .paused => if enable then s1 else switchOff i s1
    (s2, Answer.okData (.linkState s2.links[i].state))

/-- LINK_RESTART (R76). -/
def ownLinkRestart (link : Option Nat) (s : State) : State × Answer :=
  match link.bind linkOf with
  | none => (s, Answer.range)
  | some i =>
    if s.links[i].state = .off then (s, Answer.of .linkDown) else (enterAlign i s, Answer.ok)

/-- The pause flag is set or cleared and an aligned link follows it (R77). -/
def setPause (pause : Bool) (i : Fin 8) (s : State) : State :=
  moveAligned i (s.onLink i fun l => { l with pause := pause })

/-- LINK_PAUSE (R77). -/
def ownLinkPause (link : Option Nat) (s : State) : State × Answer :=
  match link.bind linkOf with
  | none => (s, Answer.range)
  | some i => (setPause true i s, Answer.ok)

/-- LINK_RESUME (R77). -/
def ownLinkResume (link : Option Nat) (s : State) : State × Answer :=
  match link.bind linkOf with
  | none => (s, Answer.range)
  | some i => (setPause false i s, Answer.ok)

def Relay.view : Relay → RelayView
  | .idle => .idle
  | .sending _ _ => .sending
  | .awaiting _ _ _ => .awaiting

/-- LINK_STATUS (R78). -/
def ownLinkStatus (link : Option Nat) (s : State) : Answer :=
  match link.bind linkOf with
  | none => Answer.range
  | some i =>
    let l := s.links[i]
    let aligning := decide (l.state = .align)
    Answer.okData (.linkStatus
      { state := l.state, degraded := l.degraded, enable := l.enable, pause := l.pause, mask := l.mask,
        recovery := l.recovery, errors := l.errors, run := l.run, missing := l.missing,
        goodRun := if aligning then some l.goodRun else none
        alignCount := if aligning then some l.alignCount else none
        holdOff := if l.state = .fault then some l.holdOff else none
        reason := l.reason, locked := l.locked, relay := l.relay.view, slots := slotsPerLink s.gen.rate.mult })

/-- CONVERTER_COMMAND (R79, R80): 1 to 8 bytes; a taken command goes out as its marker and then its bytes. -/
def ownConverterCommand (tag : Byte) (body : Option ConverterCommandBody) : Owner := fun s =>
  match body with
  | none => (s, some Answer.range)
  | some b =>
    match linkOf b.link with
    | none => (s, some Answer.range)
    | some i =>
      if b.bytes.length < 1 ∨ 8 < b.bytes.length then (s, some Answer.range)
      else if s.links[i].state = .active ∨ s.links[i].state = .paused then
        if s.links[i].relay.busy then (s, some (Answer.of .busy))
        else
          (s.onLink i fun l => { l with relay := .sending tag (BitVec.ofNat 8 (0xC0 + b.bytes.length) :: b.bytes) }, none)
      else (s, some (Answer.of .linkDown))

/-! ### The taking of the requests (R170) -/

def takeLinkConfig (tag : Byte) (body : Option LinkConfigBody) : State → State :=
  takeRequest (.linkConfig tag body) tag 0x40 (owned (ownLinkConfig body))
def takeLinkRestart (tag : Byte) (link : Option Nat) : State → State :=
  takeRequest (.linkRestart tag link) tag 0x41 (owned (ownLinkRestart link))
def takeLinkPause (tag : Byte) (link : Option Nat) : State → State :=
  takeRequest (.linkPause tag link) tag 0x42 (owned (ownLinkPause link))
def takeLinkResume (tag : Byte) (link : Option Nat) : State → State :=
  takeRequest (.linkResume tag link) tag 0x43 (owned (ownLinkResume link))
def takeLinkStatus (tag : Byte) (link : Option Nat) : State → State :=
  takeRequest (.linkStatus tag link) tag 0x44 (reports (ownLinkStatus link))
def takeConverterCommand (tag : Byte) (body : Option ConverterCommandBody) : State → State :=
  takeRequest (.converterCommand tag body) tag 0x45 (ownConverterCommand tag body)

end Sys2Proof.Machine
end

