-- ==== Sys2Proof/Machine/Management.lean ====
section
/-! DEFINITION. The management processor's own requests and the uplink transmitter: UNKNOWN, DEVICE_INFO, COUNTERS_READ, the
upstream lane and its arbiter (10_management_messages.md, R170 to R183). -/

namespace Sys2Proof.Machine

/-! ### UNKNOWN and DEVICE_INFO -/

/-- A request of no kind of the part (R170, R181). -/
def ownUnknown (s : State) : State × Answer :=
  (s.onMgmt fun m => { m with counters := { m.counters with unknown := bump32 m.counters.unknown } }, Answer.of .unknown)

def Store.name : Store → StoreName
  | .empty => .empty
  | .writing _ _ _ => .writing
  | .valid _ => .valid
  | .incomplete => .incomplete

/-- DEVICE_INFO (R182): the places in use count the request's own place, which is no longer in the request queue. -/
def ownDeviceInfo (body : Option Unit) (s : State) : Answer :=
  match body with
  | none => Answer.range
  | some _ =>
    Answer.okData (.deviceInfo
      { mode := s.device.mode, rate := s.gen.rate, blockSize := s.gen.blockSize, playback := s.gen.playback,
        records := s.gen.records, sampleCounter := s.gen.sampleCounter, blockNumber := s.gen.blockNumber,
        uplink := s.uplink.state, store := s.device.store.name, resets := s.device.resets, places := placesInUse s + 1,
        edits := s.engine.edits.length, listSealed := s.engine.commit.isSome })

/-! ### COUNTERS_READ (R179, R180) -/

/-- A counter group with its index (R179). -/
inductive Group where
  | link (n : Fin 8)
  | surface (n : Fin 4)
  | clip (first count : Nat)
  | clock
  | uplink
  | rule
  | management
deriving DecidableEq, Repr

/-- The group a request names, where its index and count are in range (R179). -/
def groupOf (group index count : Nat) : Option Group :=
  if group = 0 then (linkOf index).map Group.link
  else if group = 1 then (surfaceOf index).map Group.surface
  else if group = 2 then
    if index < 528 ∧ 1 ≤ count ∧ count ≤ 64 ∧ index + count ≤ 528 then some (.clip index count) else none
  else if group = 3 then some .clock
  else if group = 4 then some .uplink
  else if group = 5 then some .rule
  else if group = 6 then some .management
  else none

/-- The counters of a group, in the order of R179. -/
def groupValues (s : State) : Group → List Nat
  | .link n =>
    let c := s.links[n].counters
    [c.good, c.bad, c.missing, c.extra, c.concealed, c.silenced, c.faults, c.timeouts]
  | .surface n =>
    let c := s.surfaces[n].counters
    [c.received, c.malformed, c.clamped, c.discarded, c.hellos, c.unmatched, c.sent, c.overflow, c.losses]
  | .clip first count => (List.range count).map fun k => (s.engine.clips)[first + k]?.getD 0
  | .clock =>
    let c := s.clock.counters
    [c.selections, c.holdovers, c.expiries, c.edgeLosses, c.outOfTolerance]
  | .uplink =>
    let c := s.uplink.counters
    [c.stored, c.played, c.underruns, c.late, c.early, c.duplicates, c.bad, c.flushed, c.losses, c.installs]
  | .rule =>
    let c := s.rules.counters
    [c.matched, c.deadbandDrops, c.missedBindings, c.heldSkips]
  | .management =>
    let c := s.mgmt.counters
    [c.received, c.dropped, c.unknown, c.repliesSent, c.alarmsSent, c.superseded, c.eventsQueued, c.eventsLost,
      c.eventsSent, c.reportsSent]

/-- The group's counters set to 0 (R179). -/
def clearGroup (s : State) : Group → State
  | .link n => s.onLink n fun l => { l with counters := LinkCounters.zero }
  | .surface n => s.onSurface n fun f => { f with counters := SurfaceCounters.zero }
  | .clip first count =>
    s.onEngine fun e =>
      { e with clips := tabulate 528 fun k =>
          if first ≤ k ∧ k < first + count then 0 else (e.clips)[k]?.getD 0 }
  | .clock => s.onClock fun c => { c with counters := ClockCounters.zero }
  | .uplink => s.onUplink fun u => { u with counters := UplinkCounters.zero }
  | .rule => s.onRules fun u => { u with counters := RuleCounters.zero }
  | .management => s.onMgmt fun m => { m with counters := MgmtCounters.zero }

/-- CLIP counters are 2 bytes each in the reply, the others 4 (R179). -/
def Group.wide : Group → Bool
  | .clip _ _ => false
  | .link _ => true
  | .surface _ => true
  | .clock => true
  | .uplink => true
  | .rule => true
  | .management => true

/-- COUNTERS_READ's fields in range (R179). -/
def readCounters (b : CountersReadBody) : Option (Group × Bool) := do
  let g ← groupOf b.group b.index b.count
  let clear ← yesNoOf b.clear
  return (g, clear)

/-- COUNTERS_READ (R179, R180). -/
def ownCountersRead (body : Option CountersReadBody) (s : State) : State × Answer :=
  match body.bind readCounters with
  | none => (s, Answer.range)
  | some (g, clear) =>
    (if clear then clearGroup s g else s, Answer.okData (.counters g.wide (groupValues s g)))

/-! ### The upstream lane (R109, R172, R177) -/

/-- A due UP block begins as soon as the lane is free (R109). -/
def Management.startDue (m : Management) : Management :=
  match m.lane, m.blocksDue with
  | .free, b :: rest => { m with lane := .block b, blocksDue := rest }
  | _, _ => m

/-- UP_BLOCK_SENT: the UP block on the lane has been sent and the frame count starts again (R177). -/
def endBlock (s : State) : State :=
  match s.mgmt.lane with
  | .block _ => s.onMgmt fun m => Management.startDue { m with lane := .free, frameCount := 0 }
  | .message _ => s
  | .free => s

/-- The message is the OK of a DEVICE_RESET (R190). -/
def Message.isResetReply : Message → Bool
  | .reply r => decide (r.kind = 0x72#8 ∧ r.answer.status = .ok)
  | .alarm _ => false
  | .event _ _ => false
  | .meter _ => false

/-- The reset in flight once a message frame has been wholly sent (R190). -/
def resetAfter (m : Message) (r : ResetState) : ResetState :=
  if m.isResetReply ∧ r = .replying then .ready else r

/-- MESSAGE_FRAME_END: the message frame on the lane has been sent; a reply's place is freed (R172), and a DEVICE_RESET
whose reply it was acts at the next block boundary (R190). -/
def endMessage (s : State) : State :=
  match s.mgmt.lane with
  | .message m =>
    (s.onMgmt fun g => Management.startDue { g with lane := .free }).onDevice fun d =>
      { d with resetState := resetAfter m d.resetState }
  | .block _ => s
  | .free => s

/-- The report in the slot is promoted: it has waited 8 block boundaries (R176). -/
def SlotReport.isPromoted (r : SlotReport) : Bool := r.promoted || decide (8 ≤ r.age)

/-- The promoted report of the meter slot. -/
def promotedSlot (m : Management) : Option SlotReport := m.meterSlot.filter SlotReport.isPromoted

/-- The message frame `msg` begins to be sent (R177). -/
def Management.begin_ (msg : Message) (m : Management) : Management :=
  { m with lane := .message msg, frameCount := m.frameCount + 1 }

def Management.beginAlarm (e : AlarmEntry) (rest : List AlarmEntry) (m : Management) : Management :=
  Management.begin_ (.alarm e)
    { m with alarms := rest, counters := { m.counters with alarmsSent := bump32 m.counters.alarmsSent } }

def Management.beginReply (r : Reply) (rest : List Reply) (m : Management) : Management :=
  Management.begin_ (.reply r)
    { m with replies := rest, counters := { m.counters with repliesSent := bump32 m.counters.repliesSent } }

/-- An event's notice takes the pending-loss count with it (R175). -/
def Management.beginEvent (e : SurfaceEvent) (rest : List SurfaceEvent) (m : Management) : Management :=
  Management.begin_ (.event e m.pendingLoss)
    { m with
      events := rest, pendingLoss := 0
      counters := { m.counters with eventsSent := bump32 m.counters.eventsSent } }

def Management.beginReport (r : SlotReport) (m : Management) : Management :=
  Management.begin_ (.meter r.report)
    { m with meterSlot := none, counters := { m.counters with reportsSent := bump32 m.counters.reportsSent } }

/-- The arbiter's choice among the classes below the replies (R177). -/
def chooseBelowReplies (m : Management) : Management :=
  match promotedSlot m with
  | some r => m.beginReport r
  | none =>
    match m.events with
    | e :: rest => m.beginEvent e rest
    | [] =>
      match m.meterSlot with
      | some r => m.beginReport r
      | none => m

/-- The arbiter's choice (R177); `lost`: the uplink is LOST and replies are passed over (R178). -/
def chooseMessage (lost : Bool) (m : Management) : Management :=
  match m.alarms with
  | e :: rest => m.beginAlarm e rest
  | [] =>
    match m.replies with
    | r :: rest => if lost then chooseBelowReplies m else m.beginReply r rest
    | [] => chooseBelowReplies m

/-- The arbiter may begin a message frame (R177). -/
def mayChoose (m : Management) : Bool := decide (m.lane = .free ∧ m.blocksDue = [] ∧ m.frameCount < 16)

/-- ARBITER_CHOICE (R177, R178). A choice is made when it is commanded and at no other time: how soon it follows a free lane
or a posting is the sender's to say (DESIGN CHOICE, log entry 21). -/
def arbitrate (s : State) : State :=
  if mayChoose s.mgmt then s.onMgmt (chooseMessage (decide (s.uplink.state = .lost))) else s

/-! ### The taking of the requests (R170) -/

def takeUnknown (tag kind : Byte) : State → State := takeRequest (.unknown tag kind) tag kind (owned ownUnknown)
def takeDeviceInfo (tag : Byte) (body : Option Unit) : State → State :=
  takeRequest (.deviceInfo tag body) tag 0x73 (reports (ownDeviceInfo body))
def takeCountersRead (tag : Byte) (body : Option CountersReadBody) : State → State :=
  takeRequest (.countersRead tag body) tag 0x76 (owned (ownCountersRead body))

end Sys2Proof.Machine
end

