-- ==== Sys2Proof/Machine/Device.lean ====
section
/-! DEFINITION. The mode and store unit: MODE_SET, the fallback store and the taking of DEVICE_RESET
(11_operating_modes_and_the_fallback_store.md, R184 to R188, R190). -/

namespace Sys2Proof.Machine

/-! ### MODE_SET (R184, R185) -/

/-- Every aligned link follows the mode (R67), by ascending link number, which is the order in which their LINK_STATE alarms
enter the alarm queue (DESIGN CHOICE, log entry 35). -/
def moveLinks (s : State) : State := linkNumbers.foldl (fun t i => moveAligned i t) s

/-- SETUP is entered: every hold is released, then the mode changes and the links follow (R153, R184). -/
def enterSetup (s : State) : State :=
  moveLinks ((s.onEngine fun e => { e with table := releaseAll e.table }).onDevice fun d => { d with mode := .setup })

/-- OPERATE is entered (R185). -/
def enterOperate (s : State) : State := moveLinks (s.onDevice fun d => { d with mode := .operate })

def modeOf (n : Nat) : Option Mode :=
  if n = 0 then some .setup else if n = 1 then some .operate else none

/-- MODE_SET (R184, R185): the mode in force named again changes nothing. -/
def ownModeSet (mode : Option Nat) (s : State) : State × Answer :=
  match mode.bind modeOf with
  | none => (s, Answer.range)
  | some .setup => (if s.device.mode = .setup then s else enterSetup s, Answer.ok)
  | some .operate => (if s.device.mode = .operate then s else enterOperate s, Answer.ok)

/-! ### The store (R186 to R188) -/

/-- A write ended before completion leaves the store INCOMPLETE (R187). -/
def Store.cut : Store → Store
  | .writing _ _ _ => .incomplete
  | .empty => .empty
  | .valid p => .valid p
  | .incomplete => .incomplete

/-- The patch the autostart decision applies (R189). -/
def Store.autostart : Store → Option StoredPatch
  | .valid p => if p.autostart then some p else none
  | .empty => none
  | .writing _ _ _ => none
  | .incomplete => none

/-- A record of the active table as it is stored (R187). -/
def storeRecord (r : Crosspoint) : PatchEntry := ⟨r.source, r.destination, r.setGain, r.muted, r.ramp⟩

/-- The two flags of STORE_WRITE (R187). -/
def readFlags (b : StoreWriteBody) : Option (Bool × Bool) := do
  let autostart ← yesNoOf b.autostart
  let fallback ← yesNoOf b.fallback
  return (autostart, fallback)

/-- STORE_WRITE (R187). -/
def ownStoreWrite (tag : Byte) (body : Option StoreWriteBody) : Owner := fun s =>
  match body with
  | none => (s, some Answer.range)
  | some b =>
    if s.device.store.busy then (s, some (Answer.of .busy))
    else
      match readFlags b with
      | none => (s, some Answer.range)
      | some (autostart, fallback) =>
        if 256 < s.engine.table.length then (s, some Answer.range)
        else
          (s.onDevice fun d =>
            { d with store :=
                .writing ⟨s.engine.table.map storeRecord, s.gen.rate, autostart, fallback⟩ tag s.clock.time }, none)

/-- The number of records a STORE alarm carries: absent unless VALID (R188). -/
def Store.validCount : Store → Option Nat
  | .valid p => some p.records.length
  | .empty => none
  | .writing _ _ _ => none
  | .incomplete => none

/-- Post a STORE alarm (R188). -/
def postStoreAlarm (s : State) : State :=
  postAlarm (.store s.device.store.name s.device.store.validCount s.device.completed (stampNow s)) s

/-- STORE_WRITE_COMPLETE, while a write is in flight (R187, R188). -/
def completeStore (s : State) : State :=
  match s.device.store with
  | .writing snapshot tag _ =>
    postStoreAlarm (pushReply tag 0x74 Answer.ok (s.onDevice fun d =>
      { d with store := .valid snapshot, completed := wrapSucc 65536 d.completed }))
  | .empty => s
  | .valid _ => s
  | .incomplete => s

/-- 300 ms have passed since a write was taken, by the end of the sample period in progress (R187). -/
def storeOverdue (s : State) : Bool :=
  match s.device.store with
  | .writing _ _ since => decide (since + 300 * timePerMs ≤ periodEnd s)
  | .empty => false
  | .valid _ => false
  | .incomplete => false

/-- STORE_STATUS (R186). -/
def ownStoreStatus (body : Option Unit) (s : State) : Answer :=
  match body with
  | none => Answer.range
  | some _ =>
    let d := s.device
    Answer.okData (.storeStatus
      (match d.store with
      | .empty => ⟨.empty, none, none, none, none, none, d.completed⟩
      | .incomplete => ⟨.incomplete, none, none, none, none, none, d.completed⟩
      | .valid p => ⟨.valid, some p.records.length, some p.rate, some p.autostart, some p.fallback, none, d.completed⟩
      | .writing p _ since =>
        ⟨.writing, some p.records.length, none, some p.autostart, some p.fallback, some (msSince s since), d.completed⟩))

/-! ### DEVICE_RESET (R190) -/

/-- DEVICE_RESET as it is taken: OK at once, and the reset is in flight. -/
def ownDeviceReset (body : Option Unit) (s : State) : State × Answer :=
  match body with
  | none => (s, Answer.range)
  | some _ =>
    if s.device.resetState = .idle then (s.onDevice fun d => { d with resetState := .replying }, Answer.ok)
    else (s, Answer.of .busy)

/-! ### The taking of the requests (R170) -/

def takeModeSetSetup (tag : Byte) (mode : Option Nat) : State → State :=
  takeRequest (.modeSetSetup tag mode) tag 0x70 (owned (ownModeSet mode))
def takeModeSetOperate (tag : Byte) (mode : Option Nat) : State → State :=
  takeRequest (.modeSetOperate tag mode) tag 0x70 (owned (ownModeSet mode))
def takeDeviceReset (tag : Byte) (body : Option Unit) : State → State :=
  takeRequest (.deviceReset tag body) tag 0x72 (owned (ownDeviceReset body))
def takeStoreWrite (tag : Byte) (body : Option StoreWriteBody) : State → State :=
  takeRequest (.storeWrite tag body) tag 0x74 (ownStoreWrite tag body)
def takeStoreStatus (tag : Byte) (body : Option Unit) : State → State :=
  takeRequest (.storeStatus tag body) tag 0x75 (reports (ownStoreStatus body))

end Sys2Proof.Machine
end

