-- ==== Sys2Proof/Machine/Meters.lean ====
section
/-! DEFINITION. The meter unit and the meter slot: the requests, report formation, merging and promotion (09_metering.md,
R161 to R168; R176). The peaks of a sample period are in Mix.lean. -/

namespace Sys2Proof.Machine

/-! ### The requests -/

/-- A binding in range (R161). -/
def readBinding : Option (Nat × Nat) → Option (Option (Fin 4 × Nat))
  | none => some none
  | some (link, address) => do
    let i ← surfaceOf link
    let address ← within 0 4095 address
    return some (i, address)

/-- A point definition in range, as the point starts (R161). -/
def readPointFields (p : RawPoint) : Option MeterPoint := do
  let active ← yesNoOf p.active
  let tap ← tapOf p.tap
  let slot ← slotOf p.slot
  let binding ← readBinding p.binding
  return ⟨active, tap, slot, binding, 0, false⟩

/-- METER_POINTS' fields in range (R161): 1 to 8 definitions that end at or before point 63. -/
def readPoints (b : MeterPointsBody) : Option (List MeterPoint) :=
  if 1 ≤ b.points.length ∧ b.points.length ≤ 8 ∧ b.first + b.points.length ≤ 64 then readEach readPointFields b.points
  else none

/-- Consecutive points written from `first` on. -/
def writePoints (first : Nat) (written : List MeterPoint) (points : Vector MeterPoint 64) : Vector MeterPoint 64 :=
  tabulate 64 fun n =>
    if first ≤ n then (written[n - first]?).getD (points[n]?.getD MeterPoint.reset) else points[n]?.getD MeterPoint.reset

/-- METER_POINTS (R161, R165): a report in the slot is from now on of an older configuration. -/
def ownMeterPoints (body : Option MeterPointsBody) (s : State) : State × Answer :=
  match body with
  | none => (s, Answer.range)
  | some b =>
    match readPoints b with
    | none => (s, Answer.range)
    | some written =>
      let config := wrapSucc 256 s.meter.config
      ((s.onMeter fun m => { m with points := writePoints b.first written m.points, config := config }).onMgmt fun g =>
          { g with meterSlot := g.meterSlot.map fun r => { r with stale := true } },
        Answer.okData (.configNumber config))

/-- METER_CONFIG (R163). -/
def ownMeterConfig (interval : Option Nat) (s : State) : State × Answer :=
  match interval.bind (within 1 255) with
  | none => (s, Answer.range)
  | some n => (s.onMeter fun m => { m with interval := n }, Answer.ok)

/-- METER_THRESHOLDS (R166). -/
def ownMeterThresholds (entries : Option (List Nat)) (s : State) : State × Answer :=
  match entries with
  | none => (s, Answer.range)
  | some l =>
    if thresholdsOk l then (s.onMeter fun m => { m with thresholds := tabulate 16 fun k => l.getD k 0 }, Answer.ok)
    else (s, Answer.range)

/-! ### Reports (R164 to R167) -/

/-- The points with their numbers, in order. -/
def numberedPoints (m : MeterUnit) : List (Nat × MeterPoint) := (List.range 64).zip m.points.toList

/-- The active points with their numbers, in order. -/
def activePoints (m : MeterUnit) : List (Nat × MeterPoint) := (numberedPoints m).filter fun p => p.2.active

/-- The report formed at a boundary, where a point is active (R164). -/
def formReport (blockNumber : Nat) (m : MeterUnit) : Option MeterReport :=
  if activePoints m = [] then none
  else
    some
      { config := m.config, first := m.coverStart, last := (blockNumber + 65535) % 65536, merge := 1
        setupSeen := m.setupSeen
        points := (activePoints m).map fun p => ⟨p.1, p.2.peak, p.2.clipSeen⟩ }

/-- Two readings of one point merged (R165). -/
def mergeReading (older newer : PointReading) : PointReading :=
  { older with peak := max older.peak newer.peak, clipSeen := older.clipSeen || newer.clipSeen }

/-- Two reports merged (R165). -/
def mergeReports (older newer : MeterReport) : MeterReport :=
  { older with
    last := newer.last
    merge := bumpBy 255 newer.merge older.merge
    setupSeen := older.setupSeen || newer.setupSeen
    points := List.zipWith mergeReading older.points newer.points }

/-- The meter slot after a report is handed to it: placed, merged, or in place of one of an older configuration
(R165, R176). -/
def handReport (r : MeterReport) : Option SlotReport → SlotReport
  | none => ⟨r, 0, false, false⟩
  | some old =>
    if old.stale then { old with report := r, stale := false } else { old with report := mergeReports old.report r }

/-- The surface meter updates of the bound points, in point-number order (R167). -/
def offerSegments (thresholds : Vector Nat 16) : List (Nat × MeterPoint) → State → State
  | [], s => s
  | (_, p) :: rest, s =>
    offerSegments thresholds rest
      (match p.binding with
      | some (link, address) => offerUpdate link .meter address (segment thresholds p.peak) s
      | none => s)

/-- The peaks, clip-seen flags and the record of SETUP periods start again (R164), and so does the coverage, at the block
period that begins. -/
def MeterUnit.startAgain (blockNumber : Nat) (m : MeterUnit) : MeterUnit :=
  { m with
    points := mapEntries (fun p => { p with peak := 0, clipSeen := false }) m.points
    setupSeen := false, count := 0, coverStart := blockNumber }

/-- METER_REPORT, where a report is due at the boundary (R164). -/
def reportMeters (s : State) : State :=
  if s.boundary.report then
    let s1 := s.onBoundary fun b => { b with report := false }
    let s2 := match formReport s.gen.blockNumber s.meter with
      | some r => s1.onMgmt fun g => { g with meterSlot := some (handReport r g.meterSlot) }
      | none => s1
    (offerSegments s.meter.thresholds (activePoints s.meter) s2).onMeter (MeterUnit.startAgain s.gen.blockNumber)
  else s

/-- METER_PROMOTION, where the report in the slot has waited 8 boundaries (R176). -/
def promoteReport (s : State) : State :=
  s.onMgmt fun g =>
    { g with meterSlot := g.meterSlot.map fun r => { r with promoted := r.promoted || decide (8 ≤ r.age) } }

/-! ### The taking of the requests (R170) -/

def takeMeterPoints (tag : Byte) (body : Option MeterPointsBody) : State → State :=
  takeRequest (.meterPoints tag body) tag 0x60 (owned (ownMeterPoints body))
def takeMeterConfig (tag : Byte) (interval : Option Nat) : State → State :=
  takeRequest (.meterConfig tag interval) tag 0x61 (owned (ownMeterConfig interval))
def takeMeterThresholds (tag : Byte) (entries : Option (List Nat)) : State → State :=
  takeRequest (.meterThresholds tag entries) tag 0x62 (owned (ownMeterThresholds entries))

end Sys2Proof.Machine
end

