-- ==== Sys2Proof/Machine/Mix.lean ====
section
/-! DEFINITION. What one sample period does to the crosspoint engine: the ramp steps, the sources, the mix of every present
destination, clips and clip flags (03_gain_ramps_and_mixing.md, R43 to R57). -/

namespace Sys2Proof.Machine

/-- Every record takes its ramp step (R43, R47). -/
def stepRamps (s : State) : State :=
  s.onEngine fun e => { e with table := e.table.map rampStep }

/-- The sample of playback channel c at the present position of the block being played; 0 in silence (R49, R113, R195). -/
def playbackSample (s : State) (c : Nat) : Int :=
  match s.uplink.playing with
  | none => 0
  | some samples => samples.getD (s.gen.position * s.gen.playback + c) 0

/-- The value x of a present source in the sample period (R49): a converter slot as presented, a playback sample, or a bus
value of the period before, which `outputs` still holds. -/
def sourceValue (s : State) (n : Slot) : Int :=
  match slotKind n with
  | .converter link slot => (s.links[link].presented)[slot]?.getD 0
  | .uplink c => playbackSample s c
  | .bus b => (s.engine.outputs)[512 + b]?.getD 0

/-- The live records of a destination (R50). -/
def liveRecords (s : State) (d : Slot) : List Crosspoint :=
  s.engine.table.filter fun r => decide (r.destination = d) && live s.gen r

/-- The exact sum of a destination (R50). -/
def mixSum (s : State) (d : Slot) : Int :=
  ((liveRecords s d).map fun r => sourceValue s r.source * r.current).sum

/-- The y of a destination in the period: 0 in SETUP, where it is absent, and where it has no live record (R48, R53). -/
def destinationValue (s : State) (d : Slot) : Int :=
  if s.gen.periodMode = .operate ∧ presentDestination s.gen d then mixValue (mixSum s d) else 0

/-- Saturation changed the y of a present destination (R52). -/
def destinationClips (s : State) (d : Slot) : Bool :=
  decide (s.gen.periodMode = .operate) && presentDestination s.gen d && mixClips (mixSum s d)

/-- The destinations that saturation changed, in number order. Only a destination that a record names can be one. -/
def clippedSlots (s : State) : List Slot :=
  ((s.engine.table.map (·.destination)).dedup).filter (destinationClips s)

/-- One more clip on each of the destinations (R56). -/
def countClips (flags : List Slot) (clips : Vector Nat 528) : Vector Nat 528 :=
  flags.foldl (fun v d => modifyEntry v d (bump 65535)) clips

/-- The mix of the period: every destination from the sources and records as they stand, together (R48, R54). -/
def mixPeriod (s : State) : State :=
  let flags := clippedSlots s
  s.onEngine fun e =>
    { e with
      outputs := tabulate 528 fun i => if h : i < 528 then destinationValue s ⟨i, h⟩ else 0
      clipFlags := flags
      clips := countClips flags e.clips }

/-- What a meter point's tap sees in the period, given the state before and after the mix: a source's x, a destination's y,
0 for an absent number (R57). -/
def tapValue (before after : State) (p : MeterPoint) : Int :=
  match p.tap with
  | .source => if presentSource before.gen p.slot then sourceValue before p.slot else 0
  | .destination => if presentDestination before.gen p.slot then (after.engine.outputs)[p.slot] else 0

/-- A point's peak and clip-seen flag after a period in OPERATE (R162). -/
def meterPoint (before after : State) (p : MeterPoint) : MeterPoint :=
  if p.active then
    { p with
      peak := max p.peak (tapValue before after p).natAbs
      clipSeen := p.clipSeen || (decide (p.tap = .destination) && after.engine.clipFlags.contains p.slot) }
  else p

/-- The meter unit's part of the period (R162): peaks in OPERATE, the record of a SETUP period in SETUP. -/
def meterPeriod (before after : State) : State :=
  if before.gen.periodMode = .operate then
    after.onMeter fun m => { m with points := mapEntries (meterPoint before after) m.points }
  else after.onMeter fun m => { m with setupSeen := true }

/-- The record channels of the period join the UP block being gathered (R108). -/
def gatherRow (s : State) : State :=
  let row := (List.range s.gen.records).map fun c => (s.engine.outputs)[256 + c]?.getD 0
  s.onMgmt fun m => { m with gathered := m.gathered ++ [row] }

end Sys2Proof.Machine
end

