-- ==== Sys2Proof/Machine/Patch.lean ====
section
/-! DEFINITION. The patch table's requests and the application of a commit (02_the_patch_table.md, R18 to R34). Each request
is checked in the order of R18: fields, then the sealing check, then the route of its pair. -/

namespace Sys2Proof.Machine

/-- What a pair reaches (R18). -/
inductive Route where
  | record (r : Crosspoint) (removePending : Bool)
  | pendingAdd (e : PatchEntry)
  | nothing
deriving DecidableEq, Repr

/-- The route of a pair (R18). -/
def route (e : Engine) (src dst : Slot) : Route :=
  match findRecord e.table src dst with
  | some r => .record r (findEdit e.edits src dst).isSome
  | none =>
    match findEdit e.edits src dst with
    | some (.add a) => .pendingAdd a
    | _ => .nothing

/-- The change list is sealed (R30). -/
def Engine.listSealed (e : Engine) : Bool := e.commit.isSome

/-- The active table with `f` applied to the record of a pair. -/
def Engine.onRecord (src dst : Slot) (f : Crosspoint → Crosspoint) (e : Engine) : Engine :=
  { e with table := updateRecord src dst f e.table }

/-- The pending ADD of a pair with `f` applied to it, in place (R20). -/
def Engine.onAdd (src dst : Slot) (f : PatchEntry → PatchEntry) (e : Engine) : Engine :=
  { e with edits := e.edits.map fun d =>
      match d with
      | .add a => if d.is src dst then .add (f a) else .add a
      | .remove s t => .remove s t }

/-- The edit of a pair deleted: the edits after it keep their order (R25). -/
def Engine.dropEdit (src dst : Slot) (e : Engine) : Engine :=
  { e with edits := e.edits.filter fun d => !d.is src dst }

/-- An edit appended, or FULL when the list holds 64 (R26, R28). -/
def appendEdit (d : Edit) (s : State) : State × Answer :=
  if s.engine.edits.length < 64 then
    (s.onEngine fun e => { e with edits := e.edits ++ [d] }, Answer.ok)
  else (s, Answer.of .full)

/-! ### The writes of the immediate requests -/

/-- XP_GAIN on a record (R19): the set gain with a restart under the request's code, or the automation gain of a held
record. -/
def writeGain (gain : Int) (code : RampCode) (r : Crosspoint) : Crosspoint :=
  match r.owner with
  | none => retarget code r { r with setGain := gain }
  | some _ => { r with automation := some (gain, code) }

/-- XP_MUTE on a record (R21): a restart under the record's own code. -/
def writeMute (on : Bool) (r : Crosspoint) : Crosspoint :=
  retarget r.ramp r { r with muted := on }

/-- XP_RAMP on a record (R22). -/
def writeRamp (code : RampCode) (r : Crosspoint) : Crosspoint := { r with ramp := code }

/-- XP_ADD on a record whose removal is pending (R27): ramp code, mute and gain, with one restart. -/
def reviveRecord (e : PatchEntry) (r : Crosspoint) : Crosspoint :=
  match r.owner with
  | none => retarget e.ramp r { r with ramp := e.ramp, muted := e.muted, setGain := e.setGain }
  | some _ =>
    retarget e.ramp r { r with ramp := e.ramp, muted := e.muted, automation := some (e.setGain, e.ramp) }

/-! ### The requests -/

/-- XP_ADD's fields in range (R18). -/
def readEntry (b : XpAddBody) : Option PatchEntry := do
  let src ← slotOf b.source
  let dst ← slotOf b.destination
  let gain ← coeffOf b.gain
  let muted ← yesNoOf b.muted
  let ramp ← rampOf b.ramp
  return ⟨src, dst, gain, muted, ramp⟩

/-- XP_ADD (R26, R27). -/
def ownXpAdd (body : Option XpAddBody) (s : State) : State × Answer :=
  match body.bind readEntry with
  | none => (s, Answer.range)
  | some e =>
    if s.engine.listSealed then (s, Answer.of .busy)
    else
      match route s.engine e.source e.destination with
      | .record _ false => (s, Answer.of .exists_)
      | .pendingAdd _ => (s, Answer.of .exists_)
      | .record r true =>
        (s.onEngine fun g =>
          (g.dropEdit e.source e.destination).onRecord e.source e.destination (reviveRecord e), Answer.okHeld r.owner.isSome)
      | .nothing => appendEdit (.add e) s

/-- A pair's fields in range (R2). -/
def readPairBody (b : PairBody) : Option (Slot × Slot) := do
  let src ← slotOf b.source
  let dst ← slotOf b.destination
  return (src, dst)

/-- XP_REMOVE (R28). -/
def ownXpRemove (body : Option PairBody) (s : State) : State × Answer :=
  match body.bind readPairBody with
  | none => (s, Answer.range)
  | some (src, dst) =>
    if s.engine.listSealed then (s, Answer.of .busy)
    else
      match route s.engine src dst with
      | .pendingAdd _ => (s.onEngine fun g => g.dropEdit src dst, Answer.ok)
      | .record _ false => appendEdit (.remove src dst) s
      | .record _ true => (s, Answer.of .notFound)
      | .nothing => (s, Answer.of .notFound)

/-- A write of an immediate request: on the record of its pair, on a pending ADD while the list is unsealed, or NOT_FOUND
(R18, R20, R32). `held` says whether a held record's reply carries HELD. -/
def writePair (src dst : Slot) (onRecord : Crosspoint → Crosspoint) (onAdd : PatchEntry → PatchEntry) (held : Bool)
    (s : State) : State × Answer :=
  match route s.engine src dst with
  | .record r _ => (s.onEngine (Engine.onRecord src dst onRecord), Answer.okHeld (held && r.owner.isSome))
  | .pendingAdd _ =>
    if s.engine.listSealed then (s, Answer.of .busy)
    else (s.onEngine (Engine.onAdd src dst onAdd), Answer.ok)
  | .nothing => (s, Answer.of .notFound)

def readXpGainFields (b : XpGainBody) : Option (Slot × Slot × Int × RampCode) := do
  let src ← slotOf b.source
  let dst ← slotOf b.destination
  let gain ← coeffOf b.gain
  let code ← rampOf b.ramp
  return (src, dst, gain, code)

/-- XP_GAIN (R19, R20). -/
def ownXpGain (body : Option XpGainBody) (s : State) : State × Answer :=
  match body.bind readXpGainFields with
  | none => (s, Answer.range)
  | some (src, dst, gain, code) => writePair src dst (writeGain gain code) (fun a => { a with setGain := gain }) true s

def readXpMuteFields (b : XpMuteBody) : Option (Slot × Slot × Bool) := do
  let src ← slotOf b.source
  let dst ← slotOf b.destination
  let on ← yesNoOf b.on
  return (src, dst, on)

/-- XP_MUTE (R20, R21). -/
def ownXpMute (body : Option XpMuteBody) (s : State) : State × Answer :=
  match body.bind readXpMuteFields with
  | none => (s, Answer.range)
  | some (src, dst, on) => writePair src dst (writeMute on) (fun a => { a with muted := on }) false s

def readXpRampFields (b : XpRampBody) : Option (Slot × Slot × RampCode) := do
  let src ← slotOf b.source
  let dst ← slotOf b.destination
  let code ← rampOf b.ramp
  return (src, dst, code)

/-- XP_RAMP (R20, R22). -/
def ownXpRamp (body : Option XpRampBody) (s : State) : State × Answer :=
  match body.bind readXpRampFields with
  | none => (s, Answer.range)
  | some (src, dst, code) => writePair src dst (writeRamp code) (fun a => { a with ramp := code }) false s

/-- The effective target of a pending ADD (R23). -/
def entryTarget (e : PatchEntry) : Int := if e.muted then 0 else e.setGain

/-- XP_READ (R23). -/
def ownXpRead (body : Option PairBody) (s : State) : Answer :=
  match body.bind readPairBody with
  | none => Answer.range
  | some (src, dst) =>
    match route s.engine src dst with
    | .record r removePending =>
      Answer.okData (.xpRead
        { marker := if removePending then .pendingRemove else .plain, setGain := r.setGain, muted := r.muted,
          ramp := r.ramp, current := some r.current, remaining := some r.remaining, target := effectiveTarget r,
          live := some (live s.gen r), owner := r.owner, automation := r.automation,
          listSealed := s.engine.listSealed })
    | .pendingAdd e =>
      Answer.okData (.xpRead
        { marker := .pendingAdd, setGain := e.setGain, muted := e.muted, ramp := e.ramp, current := none,
          remaining := none, target := entryTarget e, live := none, owner := none, automation := none,
          listSealed := s.engine.listSealed })
    | .nothing => Answer.of .notFound

/-- One record of a PATCH_LIST reply (R24). -/
def listRecord (edits : List Edit) (r : Crosspoint) : ListedRecord :=
  { source := r.source, destination := r.destination, setGain := r.setGain, muted := r.muted, ramp := r.ramp,
    current := r.current, remaining := r.remaining, owner := r.owner, automation := r.automation,
    marker := if (findEdit edits r.source r.destination).isSome then .pendingRemove else .plain }

/-- PATCH_LIST (R24): first index 0–1023 and count 1–8 (R18). -/
def ownPatchList (body : Option PatchListBody) (s : State) : Answer :=
  match body with
  | none => Answer.range
  | some b =>
    if b.first ≤ 1023 ∧ 1 ≤ b.count ∧ b.count ≤ 8 then
      let records := ((s.engine.table.drop b.first).take b.count).map (listRecord s.engine.edits)
      Answer.okData (.patchList records s.engine.table.length s.engine.edits.length s.engine.listSealed records.length)
    else Answer.range

/-- The walk of R31 over the edits from position `pos`, with the destinations of the records counted so far. -/
def validateEdits : Nat → List Slot → List Edit → Option (Nat × Edit × Limit)
  | _, _, [] => none
  | pos, held, d :: rest =>
    let held' := match d with
      | .add e => e.destination :: held
      | .remove _ dst => held.erase dst
    if 1024 < held'.length then some (pos, d, .total)
    else if 64 < held'.count d.destination then some (pos, d, .destination)
    else validateEdits (pos + 1) held' rest

/-- PATCH_COMMIT (R30, R31): sealed, answered at once, or CONFLICT. -/
def ownPatchCommit (tag : Byte) (body : Option Unit) : Owner := fun s =>
  match body with
  | none => (s, some Answer.range)
  | some _ =>
    if s.engine.listSealed then (s, some (Answer.of .busy))
    else if s.engine.edits = [] then (s, some Answer.ok)
    else
      match validateEdits 0 (s.engine.table.map (·.destination)) s.engine.edits with
      | some (pos, d, limit) => (s, some ⟨.conflict, false, .conflict pos d.source d.destination limit⟩)
      | none => (s.onEngine fun e => { e with commit := some tag }, none)

/-- PATCH_DISCARD (R29). -/
def ownPatchDiscard (body : Option Unit) (s : State) : State × Answer :=
  match body with
  | none => (s, Answer.range)
  | some _ =>
    if s.engine.listSealed then (s, Answer.of .busy)
    else (s.onEngine fun e => { e with edits := [] }, Answer.ok)

/-! ### The commit -/

/-- One edit applied to the table (R33). -/
def applyEdit (table : List Crosspoint) : Edit → List Crosspoint
  | .add e => insertRecord (joinRecord e) table
  | .remove src dst => eraseRecord src dst table

/-- COMMIT_APPLY, where a sealed list is due at the boundary: every edit is applied, the list is empty and unsealed and the
commit's OK is placed (R33, R34). -/
def applyCommit (s : State) : State :=
  let s1 := s.onBoundary fun b => { b with commit := false }
  if s.boundary.commit then
    match s.engine.commit with
    | some tag =>
      pushReply tag 0x17 Answer.ok
        (s1.onEngine fun e => { e with table := e.edits.foldl applyEdit e.table, edits := [], commit := none })
    | none => s1
  else s

/-! ### The taking of the requests (R170) -/

def takeXpAdd (tag : Byte) (body : Option XpAddBody) : State → State :=
  takeRequest (.xpAdd tag body) tag 0x10 (owned (ownXpAdd body))
def takeXpRemove (tag : Byte) (body : Option PairBody) : State → State :=
  takeRequest (.xpRemove tag body) tag 0x11 (owned (ownXpRemove body))
def takeXpGain (tag : Byte) (body : Option XpGainBody) : State → State :=
  takeRequest (.xpGain tag body) tag 0x12 (owned (ownXpGain body))
def takeXpMute (tag : Byte) (body : Option XpMuteBody) : State → State :=
  takeRequest (.xpMute tag body) tag 0x13 (owned (ownXpMute body))
def takeXpRamp (tag : Byte) (body : Option XpRampBody) : State → State :=
  takeRequest (.xpRamp tag body) tag 0x14 (owned (ownXpRamp body))
def takeXpRead (tag : Byte) (body : Option PairBody) : State → State :=
  takeRequest (.xpRead tag body) tag 0x15 (reports (ownXpRead body))
def takePatchList (tag : Byte) (body : Option PatchListBody) : State → State :=
  takeRequest (.patchList tag body) tag 0x16 (reports (ownPatchList body))
def takePatchCommit (tag : Byte) (body : Option Unit) : State → State :=
  takeRequest (.patchCommit tag body) tag 0x17 (ownPatchCommit tag body)
def takePatchDiscard (tag : Byte) (body : Option Unit) : State → State :=
  takeRequest (.patchDiscard tag body) tag 0x18 (owned (ownPatchDiscard body))

end Sys2Proof.Machine
end

