-- ==== Sys2Proof/Machine/Rules.lean ====
section
/-! DEFINITION. The rule unit: its table, blocks and fader law, their requests, and what a surface message does in OPERATE
(08_event_rules_and_fader_laws.md, R138 to R160). -/

namespace Sys2Proof.Machine

/-! ### The requests -/

/-- An action entry in range (R138, R140). -/
def readActionEntry : RawAction → Option Action
  | .forward label => (within 0 65535 label).map Action.forward
  | .driveGain src dst ramp => do
    let src ← slotOf src
    let dst ← slotOf dst
    let ramp ← rampOf ramp
    return .driveGain src dst ramp
  | .nudgeGain src dst step => do
    let src ← slotOf src
    let dst ← slotOf dst
    let step ← within 1 65535 step
    return .nudgeGain src dst step
  | .toggleMute src dst => do
    let src ← slotOf src
    let dst ← slotOf dst
    return .toggleMute src dst
  | .echo link address => do
    let link ← surfaceOf link
    let address ← within 0 4095 address
    return .echo link address
  | .unassigned _ => none

/-- A rule number, 0–511 (R138). -/
def ruleOf (n : Nat) : Option (Fin 512) :=
  if h : n < 512 then some ⟨n, h⟩ else none

/-- RULE_WRITE's fields in range, its last passed value absent (R140). -/
def readRule (b : RuleWriteBody) : Option (Fin 512 × Rule) := do
  let n ← ruleOf b.rule
  let valid ← yesNoOf b.valid
  let kinds ← kindsOf b.kinds
  let address ← within 0 4095 b.address
  let mask ← within 0 4095 b.mask
  let deadband ← within 0 255 b.deadband
  let actions ← if b.actions.length ≤ 4 then readEach readActionEntry b.actions else none
  return (n, ⟨valid, kinds, address, mask, deadband, none, actions⟩)

/-- RULE_WRITE (R140). -/
def ownRuleWrite (body : Option RuleWriteBody) (s : State) : State × Answer :=
  match body with
  | none => (s, Answer.range)
  | some b =>
    if s.device.mode = .operate then (s, Answer.of .wrongMode)
    else
      match readRule b with
      | none => (s, Answer.range)
      | some (n, rule) => (s.onRules fun u => { u with rules := modifyEntry u.rules n fun _ => rule }, Answer.ok)

/-- The rule number lies in the block (R139). -/
def RuleBlock.holds (b : RuleBlock) (n : Nat) : Bool := decide (b.start ≤ n ∧ n < b.start + b.count)

/-- The surface link whose block holds a rule (R141). -/
def blockOwner (u : RuleUnit) (n : Nat) : Option (Fin 4) :=
  surfaceNumbers.find? fun i => (u.blocks[i]).holds n

/-- RULE_READ (R141). -/
def ownRuleRead (rule : Option Nat) (s : State) : Answer :=
  match rule.bind ruleOf with
  | none => Answer.range
  | some n => Answer.okData (.rule s.rules.rules[n] (blockOwner s.rules n))

/-- Two blocks with counts above 0 share a rule number (R139). -/
def RuleBlock.overlaps (a b : RuleBlock) : Bool :=
  decide (0 < a.count ∧ 0 < b.count ∧ a.start < b.start + b.count ∧ b.start < a.start + a.count)

/-- The block a RULE_BLOCKS gives, in range and clear of the blocks of the other links (R139). -/
def readBlock (u : RuleUnit) (b : RuleBlocksBody) : Option (Fin 4 × RuleBlock) := do
  let i ← surfaceOf b.link
  let block : RuleBlock := ⟨b.start, b.count⟩
  if b.start ≤ 511 ∧ b.count ≤ 512 ∧ b.start + b.count ≤ 512 ∧
      surfaceNumbers.all (fun j => decide (j = i) || !(block.overlaps u.blocks[j])) then return (i, block)
  else none

/-- RULE_BLOCKS (R139). -/
def ownRuleBlocks (body : Option RuleBlocksBody) (s : State) : State × Answer :=
  match body with
  | none => (s, Answer.range)
  | some b =>
    if s.device.mode = .operate then (s, Answer.of .wrongMode)
    else
      match readBlock s.rules b with
      | none => (s, Answer.range)
      | some (i, block) => (s.onRules fun u => { u with blocks := modifyEntry u.blocks i fun _ => block }, Answer.ok)

/-- The fader law with eight entries replaced (R156). -/
def writeLaw (start : Nat) (entries : List Int) (law : Vector Int 129) : Vector Int 129 :=
  tabulate 129 fun k =>
    if start ≤ k ∧ k < start + 8 then entries.getD (k - start) 0 else law[k]?.getD 0

/-- LAW_WRITE (R156). -/
def ownLawWrite (body : Option LawWriteBody) (s : State) : State × Answer :=
  match body with
  | none => (s, Answer.range)
  | some b =>
    if s.device.mode = .operate then (s, Answer.of .wrongMode)
    else if b.start ≤ 121 ∧ b.entries.length = 8 ∧ b.entries.all coeffInRange then
      (s.onRules fun u => { u with law := writeLaw b.start b.entries u.law }, Answer.ok)
    else (s, Answer.range)

/-- LAW_READ (R157). -/
def ownLawRead (start : Option Nat) (s : State) : Answer :=
  match start.bind (within 0 121) with
  | none => Answer.range
  | some k => Answer.okData (.law ((List.range 8).map fun j => (s.rules.law)[k + j]?.getD 0))

/-! ### Matching (R142, R143) -/

/-- A message handed to the rule unit: its value already fits its range (R123). -/
structure InMessage where
  link : Fin 4
  kind : MessageKind
  address : Nat
  value : Int
deriving DecidableEq, Repr

/-- The rule meets the three conditions of R142. -/
def Rule.wins (m : InMessage) (r : Rule) : Bool :=
  r.valid && r.kinds.contains m.kind && decide (m.address &&& r.mask = r.address &&& r.mask)

/-- The winning rule's number: the first of the link's block, in ascending number (R142). -/
def winner (u : RuleUnit) (m : InMessage) : Option (Fin 512) :=
  let block := u.blocks[m.link]
  (((List.range block.count).map (block.start + ·)).filterMap ruleOf).find? fun n => (u.rules[n]).wins m

/-- The winning rule lets the message act: only a POSITION is filtered (R143). -/
def passes (m : InMessage) (r : Rule) : Bool :=
  match m.kind with
  | .position => deadbandPasses r.deadband r.lastPassed m.value.toNat
  | .touch => true
  | .press => true
  | .turn => true

/-- The rule after a message that passed (R143). -/
def Rule.passed (m : InMessage) (r : Rule) : Rule :=
  match m.kind with
  | .position => { r with lastPassed := some m.value.toNat }
  | .touch => r
  | .press => r
  | .turn => r

/-! ### Actions (R144 to R150) -/

def countMissed (s : State) : State :=
  s.onRules fun u => { u with counters := { u.counters with missedBindings := bump32 u.counters.missedBindings } }

def countHeldSkip (s : State) : State :=
  s.onRules fun u => { u with counters := { u.counters with heldSkips := bump32 u.counters.heldSkips } }

/-- An action that writes a record: the pair is looked up when the action runs, and a pair that is not in the active table
is a missed binding (R144). -/
def onPair (src dst : Slot) (act : Crosspoint → State → State) (s : State) : State :=
  match findRecord s.engine.table src dst with
  | none => countMissed s
  | some r => act r s

/-- The record of a pair rewritten in the active table. -/
def writeRecord (src dst : Slot) (f : Crosspoint → Crosspoint) (s : State) : State :=
  s.onEngine fun e => { e with table := updateRecord src dst f e.table }

/-- A gain write from a surface link: skipped where another link holds the record (R146, R148). -/
def surfaceGain (link : Fin 4) (src dst : Slot) (f : Crosspoint → Crosspoint) : State → State :=
  onPair src dst fun r s =>
    if r.owner = none ∨ r.owner = some link then writeRecord src dst f s else countHeldSkip s

/-- A record driven to a coefficient (R146). -/
def driveRecord (coefficient : Int) (code : RampCode) (r : Crosspoint) : Crosspoint :=
  retarget code r { r with setGain := coefficient }

/-- A record nudged (R148, R159). -/
def nudgeRecord (turn : Int) (step : Nat) (r : Crosspoint) : Crosspoint :=
  retarget r.ramp r { r with setGain := nudge r.setGain turn step }

/-- A record whose mute is inverted (R149). -/
def toggleRecord (r : Crosspoint) : Crosspoint :=
  retarget r.ramp r { r with muted := !r.muted }

/-- A record claimed by a link (R147). -/
def holdRecord (link : Fin 4) (r : Crosspoint) : Crosspoint :=
  { r with owner := some link, automation := none }

/-- DRIVE_GAIN on a TOUCH (R147). -/
def touchPair (link : Fin 4) (src dst : Slot) (touched : Bool) : State → State :=
  onPair src dst fun r s =>
    if touched then
      match r.owner with
      | none => writeRecord src dst (holdRecord link) s
      | some other => if other = link then s else countHeldSkip s
    else if r.owner = some link then writeRecord src dst releaseHold s
    else s

/-- One action, with the message that won (R144 to R150). An action whose kind does not apply is skipped. -/
def runAction (m : InMessage) (a : Action) (s : State) : State :=
  match a, m.kind with
  | .forward label, kind => postEvent ⟨m.link, kind, m.address, m.value, label, stampNow s⟩ s
  | .driveGain src dst code, .position =>
    surfaceGain m.link src dst (driveRecord (lawCoefficient s.rules.law m.value.toNat) code) s
  | .driveGain src dst _, .touch => touchPair m.link src dst (decide (m.value = 1)) s
  | .nudgeGain src dst step, .turn => surfaceGain m.link src dst (nudgeRecord m.value step) s
  | .toggleMute src dst, .press =>
    if m.value = 1 then onPair src dst (fun _ => writeRecord src dst toggleRecord) s else s
  | .echo link address, .position => offerUpdate link .setPosition address m.value.toNat s
  | .echo link address, .press => offerUpdate link .lamp address m.value.toNat s
  | .driveGain _ _ _, .press => s
  | .driveGain _ _ _, .turn => s
  | .nudgeGain _ _ _, .position => s
  | .nudgeGain _ _ _, .touch => s
  | .nudgeGain _ _ _, .press => s
  | .toggleMute _ _, .position => s
  | .toggleMute _ _, .touch => s
  | .toggleMute _ _, .turn => s
  | .echo _ _, .touch => s
  | .echo _ _, .turn => s

/-- A message in OPERATE (R142 to R144): it finds its winner, passes or not, and runs the actions in list order. -/
def actOn (m : InMessage) (s : State) : State :=
  match winner s.rules m with
  | none =>
    s.onSurface m.link fun f => { f with counters := { f.counters with unmatched := bump32 f.counters.unmatched } }
  | some n =>
    let rule := s.rules.rules[n]
    let s1 := s.onRules fun u => { u with counters := { u.counters with matched := bump32 u.counters.matched } }
    if passes m rule then
      rule.actions.foldl (fun t a => runAction m a t)
        (s1.onRules fun u => { u with rules := modifyEntry u.rules n (Rule.passed m) })
    else
      s1.onRules fun u => { u with counters := { u.counters with deadbandDrops := bump32 u.counters.deadbandDrops } }

/-! ### The taking of the requests (R170) -/

def takeRuleWrite (tag : Byte) (body : Option RuleWriteBody) : State → State :=
  takeRequest (.ruleWrite tag body) tag 0x20 (owned (ownRuleWrite body))
def takeRuleRead (tag : Byte) (rule : Option Nat) : State → State :=
  takeRequest (.ruleRead tag rule) tag 0x21 (reports (ownRuleRead rule))
def takeRuleBlocks (tag : Byte) (body : Option RuleBlocksBody) : State → State :=
  takeRequest (.ruleBlocks tag body) tag 0x22 (owned (ownRuleBlocks body))
def takeLawWrite (tag : Byte) (body : Option LawWriteBody) : State → State :=
  takeRequest (.lawWrite tag body) tag 0x23 (owned (ownLawWrite body))
def takeLawRead (tag : Byte) (start : Option Nat) : State → State :=
  takeRequest (.lawRead tag start) tag 0x24 (reports (ownLawRead start))

end Sys2Proof.Machine
end

