-- ==== Sys2Proof/Machine/Surfaces.lean ====
section
/-! DEFINITION. The surface link controllers: inbound messages and link states, the update set and its paced sending, and
the surface requests (07_surface_links.md, R122 to R137). -/

namespace Sys2Proof.Machine

/-! ### Link states -/

/-- Post a SURFACE_STATE alarm (R135). -/
def postSurfaceAlarm (i : Fin 4) (released : Option Nat) (s : State) : State :=
  postAlarm (.surfaceState i s.surfaces[i].state s.surfaces[i].model released (stampNow s)) s

/-- Every well-formed message is counted, with the clamped counter where its value was changed; no message is open after it
(R122, R123). -/
def Surface.counted (clamped : Bool) (time : Nat) (f : Surface) : Surface :=
  { f with
    assembler := [], assemblerStart := time
    counters :=
      { f.counters with
        received := bump32 f.counters.received
        clamped := if clamped then bump32 f.counters.clamped else f.counters.clamped } }

/-- A message discarded in SILENT or LOST (R124, R128). -/
def Surface.discarded (f : Surface) : Surface :=
  { f with counters := { f.counters with discarded := bump32 f.counters.discarded } }

/-- A HELLO's marks: a HELLO_ACK is pending, the silence timer restarts, and the model code is recorded (R124, R125). -/
def Surface.greeted (model time : Nat) (f : Surface) : Surface :=
  { f with
    state := .online, model := some model, ackPending := true, silenceStart := time
    counters := { f.counters with hellos := bump32 f.counters.hellos } }

/-- HELLO (R124, R125, R128): entry to ONLINE, or a HELLO in ONLINE, which posts an alarm only where the model code
differs. -/
def hearHello (i : Fin 4) (model : Nat) (s : State) : State :=
  let before := s.surfaces[i]
  let s1 := s.onSurface i fun f => (f.counted false s.clock.time).greeted model s.clock.time
  if before.state = .online ∧ before.model = some model then s1 else postSurfaceAlarm i none s1

/-- KEEPALIVE (R124, R125, R128). -/
def hearKeepalive (i : Fin 4) (s : State) : State :=
  s.onSurface i fun f =>
    if f.state = .online then { f.counted false s.clock.time with silenceStart := s.clock.time }
    else (f.counted false s.clock.time).discarded

/-- A POSITION, TOUCH, PRESS or TURN with the value handed on (R124 to R128): matched in OPERATE, forwarded raw with label
0xFFFF in SETUP. -/
def hearMessage (m : InMessage) (clamped : Bool) (s : State) : State :=
  if s.surfaces[m.link].state = .online then
    let s1 := s.onSurface m.link fun f => { f.counted clamped s.clock.time with silenceStart := s.clock.time }
    match s.device.mode with
    | .operate => actOn m s1
    | .setup => postEvent ⟨m.link, m.kind, m.address, m.value, 0xFFFF, stampNow s⟩ s1
  else s.onSurface m.link fun f => (f.counted clamped s.clock.time).discarded

/-- POSITION (R123). -/
def hearPosition (i : Fin 4) (address value : Nat) : State → State :=
  hearMessage ⟨i, .position, address, positionValue value⟩ (decide (1023 < value))

/-- TOUCH (R123). -/
def hearTouch (i : Fin 4) (address value : Nat) : State → State :=
  hearMessage ⟨i, .touch, address, pressedValue value⟩ false

/-- PRESS (R123). -/
def hearPress (i : Fin 4) (address value : Nat) : State → State :=
  hearMessage ⟨i, .press, address, pressedValue value⟩ false

/-- TURN (R123). -/
def hearTurn (i : Fin 4) (address : Nat) (value : Int) : State → State :=
  hearMessage ⟨i, .turn, address, turnValue value⟩ (decide (value < -64 ∨ 63 < value))

/-- The bytes open in the assembler after a malformed run (R122): a start byte that cut an open message opens a new one. -/
def openBytes : Malformed → List Byte
  | .restarted start => [start]
  | .framing => []
  | .stray => []
  | .badKind => []

/-- A malformed byte run or message is discarded and counted (R122); `kept` is what is open after it. -/
def discardRun (i : Fin 4) (kept : List Byte) (s : State) : State :=
  s.onSurface i fun f =>
    { f with
      assembler := kept, assemblerStart := s.clock.time
      counters := { f.counters with malformed := bump32 f.counters.malformed } }

/-- By the end of the sample period in progress, 1 ms has passed since the start byte of the open message, or, where the
model has seen none open, since the assembler was last emptied, so that a message can have been open for 1 ms (R122, log
entry 17). -/
def assemblyOver (s : State) (f : Surface) : Bool := decide (f.assemblerStart + timePerMs ≤ periodEnd s)

/-- MESSAGE_INCOMPLETE, where it can be due (R122). -/
def discardIncomplete (i : Fin 4) (s : State) : State :=
  if assemblyOver s s.surfaces[i] then discardRun i [] s else s

/-- A message left open by its start byte is discarded at its 1 ms (R122). -/
def expireAssembly (i : Fin 4) (s : State) : State :=
  if s.surfaces[i].assembler = [] then s else discardIncomplete i s

/-! ### The silence timer (R126) -/

/-- The silence time, in units of local time. -/
def silenceTime : Nat := 500 * timePerMs

/-- The silence timer of an ONLINE link reaches 500 ms by the end of the sample period in progress. -/
def silenceDue (s : State) (f : Surface) : Bool :=
  decide (f.state = .online ∧ f.silenceStart + silenceTime ≤ periodEnd s)

/-- A link as it enters LOST (R126, steps 2 and 3). -/
def Surface.lose (f : Surface) : Surface :=
  { f with
    state := .lost, updates := [], ackPending := false
    counters := { f.counters with losses := bump32 f.counters.losses } }

/-- SILENCE_TIMER_EXPIRY, where it is due: the link's holds are released, then it enters LOST (R126, R153). -/
def expireSilence (i : Fin 4) (s : State) : State :=
  if silenceDue s s.surfaces[i] then
    let released := holdsOf i s.engine.table
    postSurfaceAlarm i (some released)
      ((s.onEngine fun e => { e with table := releaseOwner i e.table }).onSurface i Surface.lose)
  else s

/-! ### Paced sending (R130) -/

/-- The entry chosen at an expiry: the first of age 8 or more, else the first SET_POSITION, LAMP or METER. -/
def chooseUpdate (set : List Update) : Option Update :=
  match set.find? fun u => decide (8 ≤ u.age) with
  | some u => some u
  | none =>
    match set.find? fun u => decide (u.kind = .setPosition) with
    | some u => some u
    | none =>
      match set.find? fun u => decide (u.kind = .lamp) with
      | some u => some u
      | none => set.find? fun u => decide (u.kind = .meter)

/-- The entry taken out and every entry still in the set one expiry older. -/
def takeUpdate (u : Update) (set : List Update) : List Update :=
  set.filter fun v => !(decide (v.kind = u.kind ∧ v.address = u.address))

def ageUpdates (set : List Update) : List Update :=
  set.map fun u => { u with age := bump 255 u.age }

/-- An ONLINE link sends at most one message: a pending HELLO_ACK, or the chosen update (R130). -/
def Surface.send (f : Surface) : Surface :=
  if f.ackPending then
    { f with
      ackPending := false, updates := ageUpdates f.updates, lastSent := some .helloAck
      counters := { f.counters with sent := bump32 f.counters.sent } }
  else
    match chooseUpdate f.updates with
    | none => { f with updates := ageUpdates f.updates }
    | some u =>
      { f with
        updates := ageUpdates (takeUpdate u f.updates), lastSent := some (.update u.kind u.address u.value)
        counters := { f.counters with sent := bump32 f.counters.sent } }

/-- The send-interval timer restarts with the stored interval (R130, R133). -/
def Surface.restartInterval (f : Surface) : Surface :=
  { f with intervalStart := f.intervalStart + f.interval * timePerMs, interval := f.stored }

/-- The send-interval timer expires by the end of the sample period in progress. -/
def intervalDue (s : State) (f : Surface) : Bool :=
  decide (f.intervalStart + f.interval * timePerMs ≤ periodEnd s)

/-- SEND_INTERVAL_EXPIRY, where it is due (R130). -/
def expireInterval (i : Fin 4) (s : State) : State :=
  if intervalDue s s.surfaces[i] then
    s.onSurface i fun f => (if f.state = .online then f.send else f).restartInterval
  else s

/-! ### The requests (R131 to R134) -/

/-- The kind and value of a SURFACE_SEND in range (R132, R193). -/
def readUpdate (kind value : Nat) : Option UpdateKind :=
  if kind = 8 ∧ value ≤ 1023 then some .setPosition
  else if kind = 9 ∧ value ≤ 3 then some .lamp
  else if kind = 10 ∧ value ≤ 16 then some .meter
  else none

def readSend (b : SurfaceSendBody) : Option (Fin 4 × UpdateKind × Nat × Nat) := do
  let i ← surfaceOf b.link
  let kind ← readUpdate b.kind b.value
  let address ← within 0 4095 b.address
  return (i, kind, address, b.value)

/-- SURFACE_SEND (R132). -/
def ownSurfaceSend (body : Option SurfaceSendBody) (s : State) : State × Answer :=
  match body.bind readSend with
  | none => (s, Answer.range)
  | some (i, kind, address, value) =>
    if s.surfaces[i].state = .online then
      let placed := (placeUpdate kind address value s.surfaces[i].updates).2
      (offerUpdate i kind address value s, if placed = .dropped then Answer.of .full else Answer.ok)
    else (s, Answer.of .linkDown)

/-- One class of an update set (R134). Where it has no entry, the age of its oldest is absent (DESIGN CHOICE, log entry
34). -/
def classView (kind : UpdateKind) (set : List Update) : ClassView :=
  let entries := set.filter fun u => decide (u.kind = kind)
  { entries := entries.length, oldest := entries.head?.map (·.age) }

/-- SURFACE_STATUS (R134). -/
def ownSurfaceStatus (link : Option Nat) (s : State) : Answer :=
  match link.bind surfaceOf with
  | none => Answer.range
  | some i =>
    let f := s.surfaces[i]
    Answer.okData (.surfaceStatus
      { state := f.state, model := f.model
        since := if f.state = .online then some (msSince s f.silenceStart) else none
        interval := f.interval
        stored := if f.stored = f.interval then none else some f.stored
        ackPending := f.ackPending, entries := f.updates.length
        positions := classView .setPosition f.updates, lamps := classView .lamp f.updates
        meters := classView .meter f.updates, holds := holdsOf i s.engine.table, block := s.rules.blocks[i] })

/-- SURFACE_CONFIG (R133): the interval in progress keeps its length. -/
def ownSurfaceConfig (body : Option SurfaceConfigBody) (s : State) : State × Answer :=
  match body with
  | none => (s, Answer.range)
  | some b =>
    match surfaceOf b.link, within 1 64 b.interval with
    | some i, some ms => (s.onSurface i fun f => { f with stored := ms }, Answer.ok)
    | _, _ => (s, Answer.range)

/-! ### The taking of the requests (R170) -/

def takeSurfaceSend (tag : Byte) (body : Option SurfaceSendBody) : State → State :=
  takeRequest (.surfaceSend tag body) tag 0x30 (owned (ownSurfaceSend body))
def takeSurfaceStatus (tag : Byte) (link : Option Nat) : State → State :=
  takeRequest (.surfaceStatus tag link) tag 0x31 (reports (ownSurfaceStatus link))
def takeSurfaceConfig (tag : Byte) (body : Option SurfaceConfigBody) : State → State :=
  takeRequest (.surfaceConfig tag body) tag 0x32 (owned (ownSurfaceConfig body))

end Sys2Proof.Machine
end

