-- ==== Sys2Proof/Machine/Uplink.lean ====
section
/-! DEFINITION. The uplink receiver: DOWN blocks and the playback ring, play time, the block configuration, uplink loss and
the fallback decision (06_uplink_blocks_and_the_playback_ring.md, R110 to R121). -/

namespace Sys2Proof.Machine

/-! ### Downstream frames -/

/-- A frame dropped as bad (R110, R111). -/
def countBad (s : State) : State :=
  s.onUplink fun u => { u with counters := { u.counters with bad := bump32 u.counters.bad } }

/-- A DOWN block is well formed: exactly P × B containers, and the block size and channel count in force (R111, R195). -/
def downWellFormed (g : FrameGen) (b : DownBlock) : Bool :=
  decide (b.bodyLength = 16 + 4 * (g.playback * g.blockSize) ∧ b.containers.length = g.playback * g.blockSize ∧
    b.blockSize = g.blockSize ∧ b.channels = g.playback)

/-- The offset of a block number from the next-play number, modulo 65,536 (R112). -/
def ringOffset (number nextPlay : Nat) : Nat := (((number : Int) - nextPlay) % 65536).toNat

/-- A well-formed DOWN block is classified and, in the window and not held, stored under its number, which is a number
modulo 65,536 (R112). -/
def UplinkRx.file (b : DownBlock) (u : UplinkRx) : UplinkRx :=
  let k := b.number % 65536
  let d := ringOffset k u.nextPlay
  if d < 4 then
    if u.ring.any (fun r => decide (r.number = k)) then
      { u with counters := { u.counters with duplicates := bump32 u.counters.duplicates } }
    else
      { u with
        ring := u.ring ++ [⟨k, b.containers.map sampleOf⟩]
        counters := { u.counters with stored := bump32 u.counters.stored } }
  else if d < 32768 then { u with counters := { u.counters with early := bump32 u.counters.early } }
  else { u with counters := { u.counters with late := bump32 u.counters.late } }

/-- DOWN_BLOCK (R110 to R112). -/
def takeDownBlock (b : DownBlock) (s : State) : State :=
  let s1 := hearFrame s
  if downWellFormed s1.gen b then s1.onUplink (UplinkRx.file b) else countBad s1

/-! ### The ring at a block boundary -/

/-- The ring is emptied: silence is played, uncounted, and the played flag is cleared (R116). -/
def UplinkRx.flush (u : UplinkRx) : UplinkRx :=
  { u with
    ring := [], playing := none, playedFlag := false
    counters := { u.counters with flushed := bumpBy max32 u.ring.length u.counters.flushed } }

/-- Play time where the due block is held: it is taken out and played (R113). -/
def UplinkRx.play (b : RingBlock) (u : UplinkRx) : UplinkRx :=
  { u with
    ring := u.ring.filter fun r => decide (r.number ≠ b.number)
    nextPlay := wrapSucc 65536 u.nextPlay, playing := some b.samples, playedFlag := true
    counters := { u.counters with played := bump32 u.counters.played } }

/-- Play time where it is not held: an underrun (R113). -/
def UplinkRx.underrun (u : UplinkRx) : UplinkRx :=
  { u with
    nextPlay := wrapSucc 65536 u.nextPlay, playing := none, playedFlag := false
    counters := { u.counters with underruns := bump32 u.counters.underruns } }

/-- Play time at a boundary that empties the ring: silence, neither counted nor reported (R116). What arrives before the
step that empties it for good (RATE_CHANGE, UPLINK_CONFIG_EFFECT or RESET_BOUNDARY) is dropped there. -/
def UplinkRx.passOver (u : UplinkRx) : UplinkRx :=
  { u.flush with nextPlay := wrapSucc 65536 u.nextPlay }

/-- Play time (R113): the first silent block period after a played one raises an UNDERRUN alarm. -/
def playTime (flushing : Bool) (s : State) : State :=
  if flushing then s.onUplink UplinkRx.passOver
  else
    match s.uplink.ring.find? fun r => decide (r.number = s.uplink.nextPlay) with
    | some b => s.onUplink (UplinkRx.play b)
    | none =>
      let s1 := s.onUplink UplinkRx.underrun
      if s.uplink.playedFlag then postUplinkAlarm .underrun none s1 else s1

/-- The loss count at a block boundary (R117). -/
def countLoss (s : State) : State :=
  s.onUplink fun u =>
    { u with
      lossCount := if u.state = .up ∧ u.heard = false then bump 32 u.lossCount else u.lossCount
      heard := false }

/-! ### Block configuration -/

/-- The rate that will be in force at the next block boundary (R115). -/
def nextRate (s : State) : Rate := s.clock.pendingRate.getD s.gen.rate

/-- UPLINK_CONFIG's values in range at a multiplier (R115). -/
def configInRange (mult : Mult) (b : UplinkConfigBody) : Bool :=
  decide ((b.blockSize = 8 ∨ b.blockSize = 16 ∨ b.blockSize = 32 ∨ b.blockSize = 64) ∧
    1 ≤ b.records ∧ b.records ≤ maxChannels mult ∧ 1 ≤ b.playback ∧ b.playback ≤ maxChannels mult)

/-- UPLINK_CONFIG (R115). -/
def ownUplinkConfig (body : Option UplinkConfigBody) (s : State) : State × Answer :=
  match body with
  | none => (s, Answer.range)
  | some b =>
    if s.device.mode = .operate then (s, Answer.of .wrongMode)
    else if configInRange (nextRate s).mult b then
      (s.onUplink fun u => { u with pendingConfig := some ⟨b.blockSize, b.records, b.playback⟩ }, Answer.ok)
    else (s, Answer.range)

/-- UPLINK_CONFIG_EFFECT, where a configuration that differs is due at the boundary: B, R and P take its values, within
the maximum of the rate the boundary brings, and the ring is emptied (R116, R4). -/
def effectConfig (s : State) : State :=
  match s.boundary.config with
  | none => s
  | some c =>
    let most := maxChannels (s.boundary.rate.getD s.gen.rate).mult
    ((s.onBoundary fun b => { b with config := none }).onGen fun g =>
        { g with blockSize := c.blockSize, records := min c.records most, playback := min c.playback most }).onUplink
      UplinkRx.flush

/-! ### The fallback decision -/

/-- The stored patch takes the place of the active table, with the change list emptied and unsealed, with no reply
(R35, R118). -/
def installPatch (p : StoredPatch) (e : Engine) : Engine :=
  { e with table := p.records.map joinRecord, edits := [], commit := none }

/-- The patch a fallback decision installs: the uplink is LOST and the store VALID with fallback-on-loss set (R118). -/
def fallbackPatch (s : State) : Option StoredPatch :=
  match s.uplink.state, s.device.store with
  | .lost, .valid p => if p.fallback then some p else none
  | _, _ => none

/-- FALLBACK_DECISION, where it is due at the boundary (R118). -/
def decideFallback (s : State) : State :=
  if s.boundary.fallback then
    let s1 := s.onBoundary fun b => { b with fallback := false }
    match fallbackPatch s with
    | none => s1
    | some p =>
      (s1.onEngine (installPatch p)).onUplink fun u =>
        { u with
          fallbackFlag := true
          counters := { u.counters with installs := bump32 u.counters.installs } }
  else s

/-! ### The taking of the requests (R170) -/

def takeUplinkConfig (tag : Byte) (body : Option UplinkConfigBody) : State → State :=
  takeRequest (.uplinkConfig tag body) tag 0x71 (owned (ownUplinkConfig body))

end Sys2Proof.Machine
end

