-- ==== Sys2Proof/Machine/Boundary.lean ====
section
/-! DEFINITION. The block boundary and the resets: what opens a block period, RATE_CHANGE, the work of a sample period,
power-on, power loss and DEVICE_RESET's boundary (R4 to R11, R84, R102, R108, R109, R116, R189, R190). -/

namespace Sys2Proof.Machine

/-! ### The work of a sample period -/

/-- The converter links' part of a sample period that starts (R62, R63). -/
def startLinks (s : State) : State := linkNumbers.foldl (fun t i => startLinkPeriod i t) s

/-- What a sample period does once it has started: inputs are presented and frames sent, ramps step, the mix is formed from
the sources and the stepped records, peaks are taken and the UP block grows by a position (R43 to R57, R108, R162). -/
def periodWork (s : State) : State :=
  let stepped := stepRamps (startLinks s)
  gatherRow (meterPeriod stepped (mixPeriod stepped))

/-! ### BLOCK_BOUNDARY -/

/-- The block period's last sample period is in progress and its boundary has not been taken (R8). -/
def boundaryDue (s : State) : Bool := decide (s.boundary.taken = false ∧ s.gen.blockSize ≤ s.gen.position + 1)

/-- The UP block of the block period that ends (R108). -/
def formUpBlock (s : State) : UpBlock :=
  { number := s.gen.blockNumber, stamp := s.gen.blockStamp, blockSize := s.gen.blockSize, records := s.gen.records,
    playback := s.gen.playback, rate := s.gen.rate, mode := s.gen.periodMode, uplink := s.uplink.state,
    played := s.uplink.playing.isSome, nextPlay := s.uplink.nextPlay, occupancy := s.uplink.ring.length,
    rows := s.mgmt.gathered }

/-- The pending rate, where it differs from the one in force (R101). -/
def dueRate (s : State) : Option Rate :=
  s.clock.pendingRate.filter fun r => decide (r ≠ s.gen.rate)

/-- The pending configuration, where it differs from the one in force (R115). -/
def dueConfig (s : State) : Option BlockConfig :=
  s.uplink.pendingConfig.filter fun c => decide (c ≠ ⟨s.gen.blockSize, s.gen.records, s.gen.playback⟩)

/-- What the boundary leaves to be done, each by a step of its own. Where DEVICE_RESET acts, a rate or configuration that
waits is cancelled (R11) and the peaks gathered are not reported (R163). -/
def openBoundary (s : State) : Boundary :=
  let resetting := decide (s.device.resetState = .ready)
  { taken := true
    commit := s.engine.commit.isSome
    rate := if resetting then none else dueRate s
    config := if resetting then none else dueConfig s
    reset := resetting
    fallback := s.uplink.fallbackArmed
    report := !resetting && decide (s.meter.interval ≤ bump 255 s.meter.count) }

/-- The boundary will empty the playback ring (R116). -/
def Boundary.flushes (b : Boundary) : Bool := b.rate.isSome || b.config.isSome || b.reset

/-- The UP block of the ended block period is due on the lane, behind the frame being sent (R109). -/
def Management.blockDue (b : UpBlock) (m : Management) : Management :=
  Management.startDue
    { m with
      blocksDue := m.blocksDue ++ [b], gathered := []
      meterSlot := m.meterSlot.map fun r => { r with age := bump 255 r.age } }

/-- The next block period begins: the UP block is sent, the block number advances, what the boundary makes due is noted,
play time and the loss count follow (R8, R10, R109, R113, R117, R163, R176). -/
def openBlock (s : State) : State :=
  let opened := openBoundary s
  countLoss (playTime opened.flushes
    { s with
      gen := { s.gen with
        blockNumber := wrapSucc 65536 s.gen.blockNumber
        blockStamp := wrapSucc 4294967296 s.gen.sampleCounter }
      boundary := opened
      clock := { s.clock with pendingRate := none }
      uplink := { s.uplink with pendingConfig := none, fallbackArmed := false }
      meter := { s.meter with count := bump 255 s.meter.count }
      mgmt := s.mgmt.blockDue (formUpBlock s) })

/-! ### RATE_CHANGE (R4, R84, R102, R116) -/

/-- A candidate that has to be measured anew (R102). -/
def Candidate.restarted (k : Candidate) : Candidate := Candidate.joined k.ref

/-- The clock unit at a rate change: every candidate starts again, nothing is selected, lost or remembered, FREE (R102). -/
def ClockUnit.restarted (c : ClockUnit) : ClockUnit :=
  { c with
    candidates := c.candidates.map Candidate.restarted, lock := .free, selected := none, lost := none,
    heldDeviation := none, holdCount := none, holdStart := none, pullInCount := 0 }

/-- P and R within the maximum of a rate (R4). -/
def FrameGen.setRate (r : Rate) (g : FrameGen) : FrameGen :=
  { g with
    rate := r, records := min g.records (maxChannels r.mult), playback := min g.playback (maxChannels r.mult) }

/-- A link at a rate change: every open window is closed without judgement, and a link that is not OFF enters ALIGN
(R60, R84). -/
def realign (i : Fin 8) (s : State) : State :=
  if s.links[i].state = .off then s else enterAlign i (s.onLink i fun l => { l with frames := [] })

/-- RATE_CHANGE, where a rate that differs is due at the boundary (R102). The alarms and the replies of the commands it ends
are queued in this order, the links by ascending number (DESIGN CHOICE, log entry 35). -/
def changeRate (s : State) : State :=
  match s.boundary.rate with
  | none => s
  | some r =>
    let s1 := (((s.onBoundary fun b => { b with rate := none }).onGen (FrameGen.setRate r)).onUplink
      UplinkRx.flush).onClock ClockUnit.restarted
    let s2 := if s.clock.lock = .free then s1 else postClockAlarm s1
    linkNumbers.foldl (fun t i => realign i t) s2

/-! ### The autostart decision (R85, R189) -/

/-- A link under the autostart decision: OFF, or enabled and in ALIGN from the first sample period (R85). -/
def Link.startUp (autostart : Bool) : Link :=
  if autostart then { Link.reset with state := .align, enable := true, fresh := true } else Link.reset

/-- The mode the autostart decision gives (R189). -/
def startMode (patch : Option StoredPatch) : Mode := if patch.isSome then .operate else .setup

/-- The active table the autostart decision gives (R17, R189). -/
def startTable (patch : Option StoredPatch) : List Crosspoint :=
  match patch with
  | some p => p.records.map joinRecord
  | none => []

/-- The frame generator's block size and channel counts after a reset (R4, R8). -/
def FrameGen.restart (g : FrameGen) : FrameGen :=
  { g with blockSize := 16, records := maxChannels g.rate.mult, playback := maxChannels g.rate.mult }

/-! ### POWER_ON and POWER_LOSS -/

/-- The part before its first sample period, given its store and its completed-write count (R11, R189). -/
def coldState (store : Store) (completed : Nat) : State :=
  let patch := store.autostart
  let rate := match patch with
    | some p => p.rate
    | none => Rate.base
  { State.reset with
    gen := { (FrameGen.restart { FrameGen.reset with rate := rate }) with periodMode := startMode patch }
    clock := { ClockUnit.reset with
      periodTicks := nominalTicks rate.mult, periodTime := ticksToTime rate.family (nominalTicks rate.mult) }
    links := Vector.replicate 8 (Link.startUp patch.isSome)
    uplink := UplinkRx.reset
    engine := { Engine.reset with table := startTable patch }
    meter := MeterUnit.reset
    mgmt := Management.reset
    device := { Device.reset with mode := startMode patch, store := store, completed := completed } }

/-- The alarms of power-on: a store cut short (R188), and each link's entry to ALIGN under autostart (R65, R85). They enter
the alarm queue in this order, the links by ascending number (DESIGN CHOICE, log entry 35). -/
def startAlarms (s : State) : State :=
  let s1 := match s.device.store with
    | .incomplete => postStoreAlarm s
    | .empty => s
    | .writing _ _ _ => s
    | .valid _ => s
  linkNumbers.foldl (fun t i => if t.links[i].state = .align then postLinkAlarm i t else t) s1

/-- Every window opens with the first sample period; then its work is done (R60, R85). -/
def firstPeriod (s : State) : State := periodWork (playTime false (startAlarms s))

/-- POWER_ON (R11, R189): a store left WRITING is INCOMPLETE, and every other state is as power-on gives it. -/
def powerOn (s : State) : State :=
  { firstPeriod (coldState s.device.store.cut s.device.completed) with pending := s.pending, free := s.free }

/-- POWER_LOSS (R186, R187): the store's state and contents and its completed-write count survive. -/
def powerLoss (s : State) : State :=
  { State.reset with
    pending := s.pending, powered := false, free := s.free
    device := { Device.reset with store := s.device.store.cut, completed := s.device.completed } }

/-! ### RESET_BOUNDARY (R190) -/

/-- The clock unit's part (R107): a pending rate is cancelled and the counters are cleared; a candidate whose link enters
OFF becomes unqualified. -/
def resetClock (autostart : Bool) (s : State) : State :=
  let s1 := s.onClock fun c => { c with pendingRate := none, counters := ClockCounters.zero }
  linkNumbers.foldl
    (fun t i => if s.links[i].state.receives && !autostart then disqualify (.link i) t else t) s1

/-- A surface link after DEVICE_RESET; a message begun on the line is completed there (R137). -/
def Surface.restart (time : Nat) (f : Surface) : Surface :=
  { Surface.reset with intervalStart := time, assemblerStart := time, lastSent := f.lastSent }

/-- The transmitter after DEVICE_RESET (R183): every queue is emptied, the frame count and the lane are kept. -/
def Management.restart (m : Management) : Management :=
  { Management.reset with frameCount := m.frameCount, lane := m.lane, blocksDue := m.blocksDue }

/-- RESET_BOUNDARY, where DEVICE_RESET acts at the boundary (R190). -/
def resetBoundary (s : State) : State :=
  if s.boundary.reset then
    let store := s.device.store.cut
    let patch := store.autostart
    let s1 := resetClock patch.isSome s
    { s1 with
      gen := s.gen.restart
      boundary := { Boundary.none with taken := s.boundary.taken }
      links := Vector.replicate 8 (Link.startUp patch.isSome)
      uplink := { UplinkRx.reset with nextPlay := s.uplink.nextPlay }
      engine := { Engine.reset with table := startTable patch }
      surfaces := mapEntries (Surface.restart (periodEnd s)) s.surfaces
      rules := RuleUnit.reset
      meter := { MeterUnit.reset with coverStart := s.gen.blockNumber }
      mgmt := s.mgmt.restart
      device :=
        { mode := startMode patch, store := store, completed := s.device.completed, resetState := .idle,
          resets := wrapSucc 65536 s.device.resets } }
  else s

end Sys2Proof.Machine
end

