-- ==== Sys2Proof/Machine/Period.lean ====
section
/-! DEFINITION. The end of a sample period with everything that has to come about by it, the block boundary, the start of the
next period (R7, R8, R9, R48, R87, R103), and the period that a command falls in. -/

namespace Sys2Proof.Machine

/-! ### What has to come about by the end of a sample period (log entry 6) -/

/-- The request command `i` is taken by its owner; an event is no request and changes nothing here. -/
def takeDecoded : Instr → State → State
  | .unknown tag kind => takeUnknown tag kind
  | .xpAdd tag body => takeXpAdd tag body
  | .xpRemove tag body => takeXpRemove tag body
  | .xpGain tag body => takeXpGain tag body
  | .xpMute tag body => takeXpMute tag body
  | .xpRamp tag body => takeXpRamp tag body
  | .xpRead tag body => takeXpRead tag body
  | .patchList tag body => takePatchList tag body
  | .patchCommit tag body => takePatchCommit tag body
  | .patchDiscard tag body => takePatchDiscard tag body
  | .ruleWrite tag body => takeRuleWrite tag body
  | .ruleRead tag rule => takeRuleRead tag rule
  | .ruleBlocks tag body => takeRuleBlocks tag body
  | .lawWrite tag body => takeLawWrite tag body
  | .lawRead tag start => takeLawRead tag start
  | .surfaceSend tag body => takeSurfaceSend tag body
  | .surfaceStatus tag link => takeSurfaceStatus tag link
  | .surfaceConfig tag body => takeSurfaceConfig tag body
  | .linkConfig tag body => takeLinkConfig tag body
  | .linkRestart tag link => takeLinkRestart tag link
  | .linkPause tag link => takeLinkPause tag link
  | .linkResume tag link => takeLinkResume tag link
  | .linkStatus tag link => takeLinkStatus tag link
  | .converterCommand tag body => takeConverterCommand tag body
  | .clockCandidates tag body => takeClockCandidates tag body
  | .clockRate tag body => takeClockRate tag body
  | .clockStatus tag body => takeClockStatus tag body
  | .wclkOut tag body => takeWclkOut tag body
  | .meterPoints tag body => takeMeterPoints tag body
  | .meterConfig tag interval => takeMeterConfig tag interval
  | .meterThresholds tag entries => takeMeterThresholds tag entries
  | .modeSetSetup tag mode => takeModeSetSetup tag mode
  | .modeSetOperate tag mode => takeModeSetOperate tag mode
  | .uplinkConfig tag body => takeUplinkConfig tag body
  | .deviceReset tag body => takeDeviceReset tag body
  | .deviceInfo tag body => takeDeviceInfo tag body
  | .storeWrite tag body => takeStoreWrite tag body
  | .storeStatus tag body => takeStoreStatus tag body
  | .countersRead tag body => takeCountersRead tag body
  | .powerOn | .powerLoss | .samplePeriod | .blockBoundary | .wclkOutLatch _ | .upBlockSent | .commitApply | .rateChange
  | .uplinkConfigEffect | .resetBoundary | .uplinkLoss | .fallbackDecision | .downBlock _ | .request _ | .badFrame
  | .storeWriteComplete | .frameStart _ _ _ | .converterFrame _ _ | .frameIncomplete _ | .missingFrame _ | .noSync _
  | .holdOffExpiry _ | .commandTimeout _ | .wordclockEdge _ _ | .edgeLoss _ | .pullInCount | .holdoverExpiry
  | .hello _ _ _ | .keepalive _ | .position _ _ _ | .touch _ _ _ | .press _ _ _ | .turn _ _ _ | .malformedMessage _ _
  | .messageIncomplete _ | .silenceTimerExpiry _ | .sendIntervalExpiry _ | .meterReport | .meterPromotion
  | .arbiterChoice | .messageFrameEnd => id

/-- Every waiting request is taken, oldest first, before the sample period ends (R170). -/
def drainRequests : Nat → State → State
  | 0, s => s
  | n + 1, s =>
    match s.mgmt.requests with
    | [] => s
    | r :: _ => drainRequests n (takeDecoded (decodeRequest r) s)

/-- A link's windows, counts and timers that fall by the end of the period (R60, R61, R66, R68, R81). -/
def settleLink (s : State) (i : Fin 8) : State :=
  timeOutCommand i (expireHoldOff i (failAlign i (loseFrame i (missFrame i s))))

/-- A surface link's timers that expire by the end of the period: the silence timer before the send interval, so that a link
lost in the period sends nothing more (R122, R126, R130; DESIGN CHOICE in the order, log entry 6). -/
def settleSurface (s : State) (i : Fin 4) : State := expireInterval i (expireSilence i (expireAssembly i s))

/-- The clock unit's count, losses and timer that fall by the end of the period (R92, R96, R99). -/
def settleClock (s : State) : State :=
  expiryStep (finishPullIn ((s.clock.candidates.map (·.ref)).foldl (fun t r => loseEdges r t) s))

/-- A store write completes 300 ms after its taking at the latest (R187). -/
def settleStore (s : State) : State := if storeOverdue s then completeStore s else s

/-- What has to come about by the end of the sample period in progress: the waiting requests are taken (R170), then the
links, the clock, the surface links, the store and the word clock outputs have what falls due (DESIGN CHOICE in the order,
log entry 6). Links of one kind are taken by ascending number, which is the order of their LINK_STATE and SURFACE_STATE
alarms (DESIGN CHOICE, log entry 35). -/
def endPeriod (s : State) : State :=
  let s1 := drainRequests s.mgmt.requests.length s
  let s2 := settleClock (linkNumbers.foldl settleLink s1)
  let s3 := settleStore (surfaceNumbers.foldl settleSurface s2)
  latchOutput 1 (latchOutput 0 s3)

/-! ### The block boundary -/

/-- The sample period in progress ends, with the block boundary where it is the last of its block period (R8). At a boundary
already taken it has ended. -/
def closePeriod (s : State) : State :=
  if s.boundary.taken then s else if boundaryDue s then openBlock (endPeriod s) else endPeriod s

/-- BLOCK_BOUNDARY, where it is due: the block period's last sample period ends, so that what falls by its end still belongs
to it (R60, R170), and the next block period begins (R8). -/
def takeBoundary (s : State) : State := if boundaryDue s then openBlock (endPeriod s) else s

/-- Every step a boundary has made due and that has not been commanded, in the order of the opcode table but for the reset,
which comes last (R33, R102, R116, R117, R118, R164, R176, R190). -/
def boundarySteps (s : State) : State :=
  resetBoundary (promoteReport (reportMeters (decideFallback (loseUplink (effectConfig (changeRate (applyCommit s)))))))

/-- Everything that comes about before the next sample period starts and has not yet. -/
def settle (s : State) : State := boundarySteps (closePeriod s)

/-! ### The start of a sample period -/

/-- The frame generator at a start (R7 to R9): after a block boundary the period within the block is 0. -/
def FrameGen.advance (taken : Bool) (mode : Mode) (g : FrameGen) : FrameGen :=
  { g with
    sampleCounter := wrapSucc 4294967296 g.sampleCounter
    position := if taken then 0 else g.position + 1
    periodMode := mode }

/-- The clock unit at a start (R86, R87, R103). -/
def ClockUnit.advance (rate : Rate) (n : Nat) (c : ClockUnit) : ClockUnit :=
  let c1 := c.nextPeriod rate n
  { c1 with outputs := mapEntries WclkOutput.advance c1.outputs }

/-- The counts of every link at the end of the period (R65, R68, R80). -/
def endLinks (s : State) : State := linkNumbers.foldl (fun t i => t.onLink i Link.endPeriod) s

/-- The next sample period starts, before its work (R7). -/
def startPeriod (s : State) : State :=
  let s1 := endLinks s
  { s1 with
    gen := s1.gen.advance s1.boundary.taken s1.device.mode
    clock := s1.clock.advance s1.gen.rate s1.free
    boundary := Boundary.none
    free := s1.free + 1 }

/-- SAMPLE_PERIOD: what comes about before the next sample period starts, its start, and its work, in which each record takes
its ramp step before the mix (R7, R9, R44). -/
def nextSample (s : State) : State := periodWork (startPeriod (settle s))

/-! ### The period a command falls in -/

/-- The state a command finds: at an open block boundary the sample period that begins there has begun, with every step of
the boundary done first, so that no command falls between two periods (DESIGN CHOICE, log entry 7). -/
def entered (s : State) : State := if s.boundary.taken then nextSample s else s

/-- The effect of a command that is no step of the block boundary. -/
def act (f : State → State) : State → Host.Outcome State Fault Refusal := run fun s => f (entered s)

end Sys2Proof.Machine
end

