-- ==== Sys2Proof/Machine/Commands.lean ====
section
/-! DEFINITION. The meaning of each command: its operation on the state. The steps of a block boundary, SAMPLE_PERIOD among
them, run on the state as it stands; every other command falls in a sample period (log entry 7). -/

namespace Sys2Proof.Machine

/-! ### The patch table and the change list -/

/-- XP_ADD (R26, R27). -/
def execXpAdd (tag : Byte) (body : Option XpAddBody) (s : State) : Host.Outcome State Fault Refusal :=
  act (takeXpAdd tag body) s
/-- XP_REMOVE (R28). -/
def execXpRemove (tag : Byte) (body : Option PairBody) (s : State) : Host.Outcome State Fault Refusal :=
  act (takeXpRemove tag body) s
/-- XP_GAIN (R19, R20). -/
def execXpGain (tag : Byte) (body : Option XpGainBody) (s : State) : Host.Outcome State Fault Refusal :=
  act (takeXpGain tag body) s
/-- XP_MUTE (R20, R21). -/
def execXpMute (tag : Byte) (body : Option XpMuteBody) (s : State) : Host.Outcome State Fault Refusal :=
  act (takeXpMute tag body) s
/-- XP_RAMP (R20, R22). -/
def execXpRamp (tag : Byte) (body : Option XpRampBody) (s : State) : Host.Outcome State Fault Refusal :=
  act (takeXpRamp tag body) s
/-- XP_READ (R23). -/
def execXpRead (tag : Byte) (body : Option PairBody) (s : State) : Host.Outcome State Fault Refusal :=
  act (takeXpRead tag body) s
/-- PATCH_LIST (R24). -/
def execPatchList (tag : Byte) (body : Option PatchListBody) (s : State) : Host.Outcome State Fault Refusal :=
  act (takePatchList tag body) s
/-- PATCH_COMMIT (R30, R31). -/
def execPatchCommit (tag : Byte) (body : Option Unit) (s : State) : Host.Outcome State Fault Refusal :=
  act (takePatchCommit tag body) s
/-- PATCH_DISCARD (R29). -/
def execPatchDiscard (tag : Byte) (body : Option Unit) (s : State) : Host.Outcome State Fault Refusal :=
  act (takePatchDiscard tag body) s
/-- COMMIT_APPLY (R33, R34). -/
def execCommitApply (s : State) : Host.Outcome State Fault Refusal := run applyCommit s

/-! ### The studio clock -/

/-- CLOCK_CANDIDATES (R100). -/
def execClockCandidates (tag : Byte) (body : Option ClockCandidatesBody) (s : State) :
    Host.Outcome State Fault Refusal := act (takeClockCandidates tag body) s
/-- CLOCK_RATE (R101). -/
def execClockRate (tag : Byte) (body : Option ClockRateBody) (s : State) : Host.Outcome State Fault Refusal :=
  act (takeClockRate tag body) s
/-- CLOCK_STATUS (R106). -/
def execClockStatus (tag : Byte) (body : Option Unit) (s : State) : Host.Outcome State Fault Refusal :=
  act (takeClockStatus tag body) s
/-- WCLK_OUT (R104). -/
def execWclkOut (tag : Byte) (body : Option WclkOutBody) (s : State) : Host.Outcome State Fault Refusal :=
  act (takeWclkOut tag body) s
/-- WCLK_OUT_LATCH (R104). -/
def execWclkOutLatch (i : Fin 2) (s : State) : Host.Outcome State Fault Refusal := run (latchOutput i) s
/-- WORDCLOCK_EDGE (R90, R91, R96). -/
def execWordclockEdge (phase : Nat) (countFirst : Bool) (s : State) : Host.Outcome State Fault Refusal :=
  act (referenceEdge .wordclock phase countFirst) s
/-- EDGE_LOSS (R92). -/
def execEdgeLoss (ref : Reference) (s : State) : Host.Outcome State Fault Refusal := act (loseEdges ref) s
/-- PULL_IN_COUNT (R96). -/
def execPullInCount (s : State) : Host.Outcome State Fault Refusal := act finishPullIn s
/-- HOLDOVER_EXPIRY (R99). -/
def execHoldoverExpiry (s : State) : Host.Outcome State Fault Refusal := act expiryStep s

/-! ### Converter links -/

/-- LINK_CONFIG (R75). -/
def execLinkConfig (tag : Byte) (body : Option LinkConfigBody) (s : State) : Host.Outcome State Fault Refusal :=
  act (takeLinkConfig tag body) s
/-- LINK_RESTART (R76). -/
def execLinkRestart (tag : Byte) (link : Option Nat) (s : State) : Host.Outcome State Fault Refusal :=
  act (takeLinkRestart tag link) s
/-- LINK_PAUSE (R77). -/
def execLinkPause (tag : Byte) (link : Option Nat) (s : State) : Host.Outcome State Fault Refusal :=
  act (takeLinkPause tag link) s
/-- LINK_RESUME (R77). -/
def execLinkResume (tag : Byte) (link : Option Nat) (s : State) : Host.Outcome State Fault Refusal :=
  act (takeLinkResume tag link) s
/-- LINK_STATUS (R78). -/
def execLinkStatus (tag : Byte) (link : Option Nat) (s : State) : Host.Outcome State Fault Refusal :=
  act (takeLinkStatus tag link) s
/-- CONVERTER_COMMAND (R79). -/
def execConverterCommand (tag : Byte) (body : Option ConverterCommandBody) (s : State) :
    Host.Outcome State Fault Refusal := act (takeConverterCommand tag body) s
/-- FRAME_START (R60, R84). -/
def execFrameStart (i : Fin 8) (phase : Nat) (countFirst : Bool) (s : State) : Host.Outcome State Fault Refusal :=
  act (startFrame i phase countFirst) s
/-- CONVERTER_FRAME (R61). -/
def execConverterFrame (i : Fin 8) (bytes : List Byte) (s : State) : Host.Outcome State Fault Refusal :=
  act (receiveFrame i bytes) s
/-- FRAME_INCOMPLETE (R61). -/
def execFrameIncomplete (i : Fin 8) (s : State) : Host.Outcome State Fault Refusal := act (loseFrame i) s
/-- MISSING_FRAME (R60). -/
def execMissingFrame (i : Fin 8) (s : State) : Host.Outcome State Fault Refusal := act (missFrame i) s
/-- NO_SYNC (R66). -/
def execNoSync (i : Fin 8) (s : State) : Host.Outcome State Fault Refusal := act (failAlign i) s
/-- HOLD_OFF_EXPIRY (R68). -/
def execHoldOffExpiry (i : Fin 8) (s : State) : Host.Outcome State Fault Refusal := act (expireHoldOff i) s
/-- COMMAND_TIMEOUT (R81). -/
def execCommandTimeout (i : Fin 8) (s : State) : Host.Outcome State Fault Refusal := act (timeOutCommand i) s

/-! ### The uplink -/

/-- DOWN_BLOCK (R110 to R112, R119). -/
def execDownBlock (b : DownBlock) (s : State) : Host.Outcome State Fault Refusal := act (takeDownBlock b) s
/-- REQUEST (R110, R119, R169). -/
def execRequest (r : RequestFrame) (s : State) : Host.Outcome State Fault Refusal := act (arriveRequest r) s
/-- BAD_FRAME (R110). -/
def execBadFrame (s : State) : Host.Outcome State Fault Refusal := act countBad s
/-- UPLINK_CONFIG (R115). -/
def execUplinkConfig (tag : Byte) (body : Option UplinkConfigBody) (s : State) : Host.Outcome State Fault Refusal :=
  act (takeUplinkConfig tag body) s
/-- UPLINK_CONFIG_EFFECT (R116). -/
def execUplinkConfigEffect (s : State) : Host.Outcome State Fault Refusal := run effectConfig s
/-- UPLINK_LOSS (R117). -/
def execUplinkLoss (s : State) : Host.Outcome State Fault Refusal := run loseUplink s
/-- FALLBACK_DECISION (R118). -/
def execFallbackDecision (s : State) : Host.Outcome State Fault Refusal := run decideFallback s

/-! ### The rule unit -/

/-- RULE_WRITE (R140). -/
def execRuleWrite (tag : Byte) (body : Option RuleWriteBody) (s : State) : Host.Outcome State Fault Refusal :=
  act (takeRuleWrite tag body) s
/-- RULE_READ (R141). -/
def execRuleRead (tag : Byte) (rule : Option Nat) (s : State) : Host.Outcome State Fault Refusal :=
  act (takeRuleRead tag rule) s
/-- RULE_BLOCKS (R139). -/
def execRuleBlocks (tag : Byte) (body : Option RuleBlocksBody) (s : State) : Host.Outcome State Fault Refusal :=
  act (takeRuleBlocks tag body) s
/-- LAW_WRITE (R156). -/
def execLawWrite (tag : Byte) (body : Option LawWriteBody) (s : State) : Host.Outcome State Fault Refusal :=
  act (takeLawWrite tag body) s
/-- LAW_READ (R157). -/
def execLawRead (tag : Byte) (start : Option Nat) (s : State) : Host.Outcome State Fault Refusal :=
  act (takeLawRead tag start) s

/-! ### Surface links -/

/-- SURFACE_SEND (R132). -/
def execSurfaceSend (tag : Byte) (body : Option SurfaceSendBody) (s : State) : Host.Outcome State Fault Refusal :=
  act (takeSurfaceSend tag body) s
/-- SURFACE_STATUS (R134). -/
def execSurfaceStatus (tag : Byte) (link : Option Nat) (s : State) : Host.Outcome State Fault Refusal :=
  act (takeSurfaceStatus tag link) s
/-- SURFACE_CONFIG (R133). -/
def execSurfaceConfig (tag : Byte) (body : Option SurfaceConfigBody) (s : State) : Host.Outcome State Fault Refusal :=
  act (takeSurfaceConfig tag body) s
/-- HELLO (R124, R125, R128); its address is not used. -/
def execHello (i : Fin 4) (_address value : Nat) (s : State) : Host.Outcome State Fault Refusal :=
  act (hearHello i value) s
/-- KEEPALIVE (R125). -/
def execKeepalive (i : Fin 4) (s : State) : Host.Outcome State Fault Refusal := act (hearKeepalive i) s
/-- POSITION (R127, R143). -/
def execPosition (i : Fin 4) (address value : Nat) (s : State) : Host.Outcome State Fault Refusal :=
  act (hearPosition i address value) s
/-- TOUCH (R127, R147). -/
def execTouch (i : Fin 4) (address value : Nat) (s : State) : Host.Outcome State Fault Refusal :=
  act (hearTouch i address value) s
/-- PRESS (R127, R149). -/
def execPress (i : Fin 4) (address value : Nat) (s : State) : Host.Outcome State Fault Refusal :=
  act (hearPress i address value) s
/-- TURN (R127, R148). -/
def execTurn (i : Fin 4) (address : Nat) (value : Int) (s : State) : Host.Outcome State Fault Refusal :=
  act (hearTurn i address value) s
/-- MALFORMED_MESSAGE (R122). -/
def execMalformedMessage (i : Fin 4) (cause : Malformed) (s : State) : Host.Outcome State Fault Refusal :=
  act (discardRun i (openBytes cause)) s
/-- MESSAGE_INCOMPLETE (R122). -/
def execMessageIncomplete (i : Fin 4) (s : State) : Host.Outcome State Fault Refusal :=
  act (discardIncomplete i) s
/-- SILENCE_TIMER_EXPIRY (R126). -/
def execSilenceTimerExpiry (i : Fin 4) (s : State) : Host.Outcome State Fault Refusal := act (expireSilence i) s
/-- SEND_INTERVAL_EXPIRY (R130). -/
def execSendIntervalExpiry (i : Fin 4) (s : State) : Host.Outcome State Fault Refusal := act (expireInterval i) s

/-! ### Meters -/

/-- METER_POINTS (R161). -/
def execMeterPoints (tag : Byte) (body : Option MeterPointsBody) (s : State) : Host.Outcome State Fault Refusal :=
  act (takeMeterPoints tag body) s
/-- METER_CONFIG (R163). -/
def execMeterConfig (tag : Byte) (interval : Option Nat) (s : State) : Host.Outcome State Fault Refusal :=
  act (takeMeterConfig tag interval) s
/-- METER_THRESHOLDS (R166). -/
def execMeterThresholds (tag : Byte) (entries : Option (List Nat)) (s : State) : Host.Outcome State Fault Refusal :=
  act (takeMeterThresholds tag entries) s
/-- METER_REPORT (R164). -/
def execMeterReport (s : State) : Host.Outcome State Fault Refusal := run reportMeters s
/-- METER_PROMOTION (R176). -/
def execMeterPromotion (s : State) : Host.Outcome State Fault Refusal := run promoteReport s

/-! ### Management messages -/

/-- UNKNOWN (R170). -/
def execUnknown (tag kind : Byte) (s : State) : Host.Outcome State Fault Refusal := act (takeUnknown tag kind) s
/-- DEVICE_INFO (R182). -/
def execDeviceInfo (tag : Byte) (body : Option Unit) (s : State) : Host.Outcome State Fault Refusal :=
  act (takeDeviceInfo tag body) s
/-- COUNTERS_READ (R179, R180). -/
def execCountersRead (tag : Byte) (body : Option CountersReadBody) (s : State) : Host.Outcome State Fault Refusal :=
  act (takeCountersRead tag body) s
/-- UP_BLOCK_SENT (R177). -/
def execUpBlockSent (s : State) : Host.Outcome State Fault Refusal := act endBlock s
/-- ARBITER_CHOICE (R177, R178). -/
def execArbiterChoice (s : State) : Host.Outcome State Fault Refusal := act arbitrate s
/-- MESSAGE_FRAME_END (R172). -/
def execMessageFrameEnd (s : State) : Host.Outcome State Fault Refusal := act endMessage s

/-! ### Mode and store -/

/-- MODE_SET SETUP (R184). -/
def execModeSetSetup (tag : Byte) (mode : Option Nat) (s : State) : Host.Outcome State Fault Refusal :=
  act (takeModeSetSetup tag mode) s
/-- MODE_SET OPERATE (R185). -/
def execModeSetOperate (tag : Byte) (mode : Option Nat) (s : State) : Host.Outcome State Fault Refusal :=
  act (takeModeSetOperate tag mode) s
/-- DEVICE_RESET (R190). -/
def execDeviceReset (tag : Byte) (body : Option Unit) (s : State) : Host.Outcome State Fault Refusal :=
  act (takeDeviceReset tag body) s
/-- STORE_WRITE (R187). -/
def execStoreWrite (tag : Byte) (body : Option StoreWriteBody) (s : State) : Host.Outcome State Fault Refusal :=
  act (takeStoreWrite tag body) s
/-- STORE_STATUS (R186). -/
def execStoreStatus (tag : Byte) (body : Option Unit) (s : State) : Host.Outcome State Fault Refusal :=
  act (takeStoreStatus tag body) s
/-- STORE_WRITE_COMPLETE (R187, R188). -/
def execStoreWriteComplete (s : State) : Host.Outcome State Fault Refusal := act completeStore s

/-! ### The block boundary, resets and power -/

/-- BLOCK_BOUNDARY (R8). -/
def execBlockBoundary (s : State) : Host.Outcome State Fault Refusal := run takeBoundary s
/-- RATE_CHANGE (R102). -/
def execRateChange (s : State) : Host.Outcome State Fault Refusal := run changeRate s
/-- RESET_BOUNDARY (R190). -/
def execResetBoundary (s : State) : Host.Outcome State Fault Refusal := run resetBoundary s
/-- POWER_ON (R189); it acts without power. -/
def execPowerOn (s : State) : Host.Outcome State Fault Refusal := .next (powerOn s)
/-- POWER_LOSS (R186, R187). -/
def execPowerLoss (s : State) : Host.Outcome State Fault Refusal := run powerLoss s

/-! ### The sample period -/

/-- SAMPLE_PERIOD (R7, R9). -/
def execSamplePeriod (s : State) : Host.Outcome State Fault Refusal := run nextSample s

end Sys2Proof.Machine
end

