-- ==== Sys2Proof/Machine/Dispatch.lean ====
section
/-! DEFINITION. One arm for each command: a direct call of its meaning. -/

namespace Sys2Proof.Machine

def exec (i : Instr) (s : State) : Host.Outcome State Fault Refusal :=
  match i with
  | .powerOn => Sys2Proof.Machine.execPowerOn s
  | .powerLoss => Sys2Proof.Machine.execPowerLoss s
  | .samplePeriod => Sys2Proof.Machine.execSamplePeriod s
  | .blockBoundary => Sys2Proof.Machine.execBlockBoundary s
  | .wclkOutLatch output => Sys2Proof.Machine.execWclkOutLatch output s
  | .upBlockSent => Sys2Proof.Machine.execUpBlockSent s
  | .commitApply => Sys2Proof.Machine.execCommitApply s
  | .rateChange => Sys2Proof.Machine.execRateChange s
  | .uplinkConfigEffect => Sys2Proof.Machine.execUplinkConfigEffect s
  | .resetBoundary => Sys2Proof.Machine.execResetBoundary s
  | .uplinkLoss => Sys2Proof.Machine.execUplinkLoss s
  | .fallbackDecision => Sys2Proof.Machine.execFallbackDecision s
  | .downBlock b => Sys2Proof.Machine.execDownBlock b s
  | .request r => Sys2Proof.Machine.execRequest r s
  | .badFrame => Sys2Proof.Machine.execBadFrame s
  | .unknown tag kind => Sys2Proof.Machine.execUnknown tag kind s
  | .xpAdd tag body => Sys2Proof.Machine.execXpAdd tag body s
  | .xpRemove tag body => Sys2Proof.Machine.execXpRemove tag body s
  | .xpGain tag body => Sys2Proof.Machine.execXpGain tag body s
  | .xpMute tag body => Sys2Proof.Machine.execXpMute tag body s
  | .xpRamp tag body => Sys2Proof.Machine.execXpRamp tag body s
  | .xpRead tag body => Sys2Proof.Machine.execXpRead tag body s
  | .patchList tag body => Sys2Proof.Machine.execPatchList tag body s
  | .patchCommit tag body => Sys2Proof.Machine.execPatchCommit tag body s
  | .patchDiscard tag body => Sys2Proof.Machine.execPatchDiscard tag body s
  | .ruleWrite tag body => Sys2Proof.Machine.execRuleWrite tag body s
  | .ruleRead tag rule => Sys2Proof.Machine.execRuleRead tag rule s
  | .ruleBlocks tag body => Sys2Proof.Machine.execRuleBlocks tag body s
  | .lawWrite tag body => Sys2Proof.Machine.execLawWrite tag body s
  | .lawRead tag start => Sys2Proof.Machine.execLawRead tag start s
  | .surfaceSend tag body => Sys2Proof.Machine.execSurfaceSend tag body s
  | .surfaceStatus tag link => Sys2Proof.Machine.execSurfaceStatus tag link s
  | .surfaceConfig tag body => Sys2Proof.Machine.execSurfaceConfig tag body s
  | .linkConfig tag body => Sys2Proof.Machine.execLinkConfig tag body s
  | .linkRestart tag link => Sys2Proof.Machine.execLinkRestart tag link s
  | .linkPause tag link => Sys2Proof.Machine.execLinkPause tag link s
  | .linkResume tag link => Sys2Proof.Machine.execLinkResume tag link s
  | .linkStatus tag link => Sys2Proof.Machine.execLinkStatus tag link s
  | .converterCommand tag body => Sys2Proof.Machine.execConverterCommand tag body s
  | .clockCandidates tag body => Sys2Proof.Machine.execClockCandidates tag body s
  | .clockRate tag body => Sys2Proof.Machine.execClockRate tag body s
  | .clockStatus tag body => Sys2Proof.Machine.execClockStatus tag body s
  | .wclkOut tag body => Sys2Proof.Machine.execWclkOut tag body s
  | .meterPoints tag body => Sys2Proof.Machine.execMeterPoints tag body s
  | .meterConfig tag interval => Sys2Proof.Machine.execMeterConfig tag interval s
  | .meterThresholds tag entries => Sys2Proof.Machine.execMeterThresholds tag entries s
  | .modeSetSetup tag mode => Sys2Proof.Machine.execModeSetSetup tag mode s
  | .modeSetOperate tag mode => Sys2Proof.Machine.execModeSetOperate tag mode s
  | .uplinkConfig tag body => Sys2Proof.Machine.execUplinkConfig tag body s
  | .deviceReset tag body => Sys2Proof.Machine.execDeviceReset tag body s
  | .deviceInfo tag body => Sys2Proof.Machine.execDeviceInfo tag body s
  | .storeWrite tag body => Sys2Proof.Machine.execStoreWrite tag body s
  | .storeStatus tag body => Sys2Proof.Machine.execStoreStatus tag body s
  | .countersRead tag body => Sys2Proof.Machine.execCountersRead tag body s
  | .storeWriteComplete => Sys2Proof.Machine.execStoreWriteComplete s
  | .frameStart link phase countFirst => Sys2Proof.Machine.execFrameStart link phase countFirst s
  | .converterFrame link bytes => Sys2Proof.Machine.execConverterFrame link bytes s
  | .frameIncomplete link => Sys2Proof.Machine.execFrameIncomplete link s
  | .missingFrame link => Sys2Proof.Machine.execMissingFrame link s
  | .noSync link => Sys2Proof.Machine.execNoSync link s
  | .holdOffExpiry link => Sys2Proof.Machine.execHoldOffExpiry link s
  | .commandTimeout link => Sys2Proof.Machine.execCommandTimeout link s
  | .wordclockEdge phase countFirst => Sys2Proof.Machine.execWordclockEdge phase countFirst s
  | .edgeLoss candidate => Sys2Proof.Machine.execEdgeLoss candidate s
  | .pullInCount => Sys2Proof.Machine.execPullInCount s
  | .holdoverExpiry => Sys2Proof.Machine.execHoldoverExpiry s
  | .hello link address value => Sys2Proof.Machine.execHello link address value s
  | .keepalive link => Sys2Proof.Machine.execKeepalive link s
  | .position link address value => Sys2Proof.Machine.execPosition link address value s
  | .touch link address value => Sys2Proof.Machine.execTouch link address value s
  | .press link address value => Sys2Proof.Machine.execPress link address value s
  | .turn link address value => Sys2Proof.Machine.execTurn link address value s
  | .malformedMessage link cause => Sys2Proof.Machine.execMalformedMessage link cause s
  | .messageIncomplete link => Sys2Proof.Machine.execMessageIncomplete link s
  | .silenceTimerExpiry link => Sys2Proof.Machine.execSilenceTimerExpiry link s
  | .sendIntervalExpiry link => Sys2Proof.Machine.execSendIntervalExpiry link s
  | .meterReport => Sys2Proof.Machine.execMeterReport s
  | .meterPromotion => Sys2Proof.Machine.execMeterPromotion s
  | .arbiterChoice => Sys2Proof.Machine.execArbiterChoice s
  | .messageFrameEnd => Sys2Proof.Machine.execMessageFrameEnd s

end Sys2Proof.Machine
end

