-- ==== Sys2Proof/Safety.lean ====
section
/-! DEFINITION. What a run of the part never breaks: the laws the manual states of its tables, queues, links and counts,
each as a predicate of one state. -/

namespace Sys2Proof.Safety

open Sys2Proof.Machine

/-! ### The taking of a request (R170, R171) -/

/-- The part has power and is within a sample period, not at a block boundary that the next SAMPLE_PERIOD is to leave. -/
abbrev InPeriod (s : State) : Prop := s.powered = true ∧ s.boundary.taken = false

/-- The commands that act at an open block boundary: the steps of the boundary, SAMPLE_PERIOD, which leaves it, and the
power (log entry 7). Every other command falls in the sample period that begins there. -/
def boundaryCommands : List Instr :=
  [.powerOn, .powerLoss, .samplePeriod, .blockBoundary, .wclkOutLatch 0, .wclkOutLatch 1, .commitApply, .rateChange,
    .uplinkConfigEffect, .uplinkLoss, .fallbackDecision, .meterReport, .meterPromotion, .resetBoundary]

/-- `s` after these commands, one after another. -/
def afterAll (cs : List Instr) (s : State) : State :=
  cs.foldl (fun u c => match exec c u with
    | .next v => v
    | .fault _ => u
    | .refused _ => u) s

/-- The part is within a sample period, `c` takes the oldest waiting request, and `rest` waits behind it. -/
def Takes (c : Instr) (rest : List RequestFrame) (s : State) : Prop :=
  InPeriod s ∧ ∃ r, s.mgmt.requests = r :: rest ∧ decodeRequest r = c

/-- `s` with only `rest` waiting: the request taken is in flight. -/
def taken (rest : List RequestFrame) (s : State) : State := { s with mgmt := { s.mgmt with requests := rest } }

/-- `s` with only `rest` waiting and the taken request's reply at the end of the reply queue. -/
def replied (rest : List RequestFrame) (tag kind : Byte) (a : Answer) (s : State) : State :=
  { s with mgmt := { s.mgmt with requests := rest, replies := s.mgmt.replies ++ [⟨tag, kind, a⟩] } }

/-- The transmitter once these alarms are posted, one after another (R174): each enters the alarm queue, and one that
replaces the entry of its key adds one to the alarms-superseded counter. -/
def afterAlarms (alarms : List Alarm) (m : Management) : Management :=
  alarms.foldl (fun n a =>
    let replaces := n.alarms.any fun e => decide (e.alarm.key = a.key)
    let superseded := if replaces then bump32 n.counters.superseded else n.counters.superseded
    { n with alarms := queueAlarm a n.alarms, counters := { n.counters with superseded := superseded } }) m

/-! ### The patch table and the change list (R15, R25, R31) -/

/-- A table's destinations keep the two limits: 1,024 records in all and 64 to one destination (R15). -/
def WithinLimits (destinations : List Slot) : Prop :=
  destinations.length ≤ 1024 ∧ ∀ d, destinations.count d ≤ 64

/-- Table order without a repeated pair (R15). -/
def TableSorted (table : List Crosspoint) : Prop := table.Pairwise fun a b => a.before b = true

/-- An edit fits the table: a REMOVE names a record of it, an ADD names none (R25). -/
def EditFits (table : List Crosspoint) : Edit → Prop
  | .add e => findRecord table e.source e.destination = none
  | .remove src dst => (findRecord table src dst).isSome

/-- The stored records make a valid table: sorted, at most 256, at most 64 to one destination (R15, R186). -/
def PatchFits (p : StoredPatch) : Prop :=
  TableSorted (p.records.map joinRecord) ∧ p.records.length ≤ 256 ∧ ∀ d, (p.records.map (·.destination)).count d ≤ 64

/-- The store's patch, if it holds one, makes a valid table. -/
def StoreFits : Store → Prop
  | .valid p => PatchFits p
  | .writing p _ _ => PatchFits p
  | .empty => True
  | .incomplete => True

/-- The patch table is sorted without a repeated pair and within its limits; the change list holds at most 64 edits, no two
of one pair, each fitting the table; a sealed list is one that R31 accepts. -/
structure PatchSound (s : State) : Prop where
  sorted : TableSorted s.engine.table
  limits : WithinLimits (s.engine.table.map (·.destination))
  edits : s.engine.edits.length ≤ 64
  distinct : s.engine.edits.Pairwise fun a b => a.is b.source b.destination = false
  fits : ∀ e ∈ s.engine.edits, EditFits s.engine.table e
  accepted : s.engine.commit.isSome → validateEdits 0 (s.engine.table.map (·.destination)) s.engine.edits = none
  store : StoreFits s.device.store

/-- The destinations of the records after these edits, from those the table holds: the running counts of R31. -/
def afterEdits (destinations : List Slot) (edits : List Edit) : List Slot :=
  edits.foldl (fun held d => match d with
    | .add e => e.destination :: held
    | .remove _ dst => held.erase dst) destinations

/-- Position `n` of a change list passes the walk of R31: after its edit neither limit is passed. -/
def PassesAt (destinations : List Slot) (edits : List Edit) (n : Nat) : Prop :=
  ∀ d, edits[n]? = some d →
    (afterEdits destinations (edits.take (n + 1))).length ≤ 1024 ∧
      (afterEdits destinations (edits.take (n + 1))).count d.destination ≤ 64

/-- How command `c`, an immediate request for a pair, is taken (R18 to R22, R32): on a record of the active table by
`onRecord`, on a pending ADD in place by `onAdd`, with BUSY for a pending ADD of a sealed list and NOT_FOUND for a pair in
neither. `held`: the reply on a held record carries HELD. -/
def WritesPair (c : Instr) (tag kind : Byte) (src dst : Slot) (onRecord : Crosspoint → Crosspoint)
    (onAdd : PatchEntry → PatchEntry) (held : Bool) : Prop :=
  ∀ (rest : List RequestFrame) (s : State), Takes c rest s →
    (∀ r, findRecord s.engine.table src dst = some r →
      exec c s = .next (replied rest tag kind ⟨.ok, held && r.owner.isSome, .plain⟩
        { s with engine := { s.engine with table := updateRecord src dst onRecord s.engine.table } })) ∧
    (∀ e, findRecord s.engine.table src dst = none → findEdit s.engine.edits src dst = some (.add e) →
      (s.engine.commit = none →
        exec c s = .next (replied rest tag kind ⟨.ok, false, .plain⟩
          { s with engine := { s.engine with edits := s.engine.edits.map fun d => match d with
            | .add a => if a.source = src ∧ a.destination = dst then .add (onAdd a) else .add a
            | .remove x y => .remove x y } })) ∧
      (s.engine.commit ≠ none → exec c s = .next (replied rest tag kind ⟨.busy, false, .plain⟩ s))) ∧
    (findRecord s.engine.table src dst = none → findEdit s.engine.edits src dst = none →
      exec c s = .next (replied rest tag kind ⟨.notFound, false, .plain⟩ s))

/-- The record with its ramp restarted under `code` where the write from `before` changed its effective target
(R40, R41). -/
def restartedFrom (before : Crosspoint) (code : RampCode) (after : Crosspoint) : Crosspoint :=
  { after with
    remaining := if effectiveTarget after = effectiveTarget before then after.remaining else rampLength code }

/-! ### Touch holds (R16, R151) -/

/-- A held record is held by a link that is ONLINE, in OPERATE, and only a held record has an automation gain. -/
def HoldsSound (s : State) : Prop :=
  ∀ r ∈ s.engine.table,
    (∀ i, r.owner = some i → s.surfaces[i].state = .online ∧ s.device.mode = .operate) ∧
    (r.automation.isSome → r.owner.isSome)

/-! ### The playback ring (R111, R112) -/

/-- The next-play number is the number of the block period about to begin; the ring holds at most 4 blocks, no two of one
number, each within the window of the next-play number and the three after it. -/
structure RingSound (s : State) : Prop where
  next : s.uplink.nextPlay = wrapSucc 65536 s.gen.blockNumber
  count : s.uplink.ring.length ≤ 4
  distinct : (s.uplink.ring.map (·.number)).Nodup
  window : ∀ b ∈ s.uplink.ring, b.number < 65536 ∧ ringOffset b.number s.uplink.nextPlay < 4

/-! ### Converter links (R62, R64, R65, R68 to R72) -/

/-- The counts of a link stay in their ranges; OFF has no errors and an idle relay, FAULT stands at 255 with DEGRADED set
and an idle relay, ALIGN has an idle relay; in ALIGN and PAUSED no frame period has values to present. The frame periods
held are that of the sample period in progress and that before it, the older one first and judged first, and only a link
that receives has one that waits for its judgement; in FAULT and OFF the last of them has no values to present, so that 0
is presented from the period on in which the judgement that took the link there acts; a count of ALIGN or FAULT is 0 in
the period of the entry. -/
structure LinkSound (l : Link) : Prop where
  errors : l.errors ≤ 255
  run : l.run ≤ 255
  missing : l.missing ≤ 16
  holdOff : l.holdOff ≤ 2048
  off : l.state = .off → l.errors = 0 ∧ l.degraded = false ∧ l.relay = .idle
  fault : l.state = .fault → l.errors = 255 ∧ l.degraded = true ∧ l.relay = .idle
  align : l.state = .align → l.relay = .idle
  quiet : l.state = .align ∨ l.state = .paused → ∀ f ∈ l.frames, ∀ p, f.status = .judged p → p.active = false
  ages : ∀ f ∈ l.frames, f.age ≤ 1
  order : l.frames.Pairwise fun a b => b.age < a.age
  inTurn : l.frames.Pairwise fun a b => a.unjudged = true → b.unjudged = true
  stopped : l.state.receives = false → ∀ f, l.frames.getLast? = some f → ∀ p, f.status = .judged p → p.active = false
  windows : ∀ f ∈ l.frames, f.unjudged = true → l.state.receives = true
  entered : l.fresh = true → (l.state = .align → l.alignCount = 0) ∧ (l.state = .fault → l.holdOff = 0)

def LinksSound (s : State) : Prop := ∀ i : Fin 8, LinkSound s.links[i]

/-- At the end of the sample period in progress nothing of a link is outstanding: every window that has closed is judged, no
count reaches its limit (R60 to R62, R66, R68, R81). -/
structure LinkSettled (l : Link) : Prop where
  frames : ∀ f ∈ l.frames, f.unjudged = true → f.age = 0
  aligning : l.state = .align → l.fresh = false → l.alignCount + 1 < 4096
  holding : l.state = .fault → l.recovery = .auto → l.fresh = false → l.holdOff + 1 < 2048
  reply : ∀ tag count gathered, l.relay = .awaiting tag count gathered → count + 1 < 256

/-- At local tick `ticks` and local time `time` no timer of the clock unit, of a surface link or of the store stands at its
limit, and no disabled output has a setting waiting (R92, R96, R99, R104, R122, R126, R187). -/
structure TimersKept (ticks time : Nat) (s : State) : Prop where
  edges : ∀ ref k w, findCandidate s.clock ref = some k → k.window = some w →
    ticks < w.latest + 4 * nominalTicks s.gen.rate.mult
  pullIn : s.clock.lock = .pullIn → s.clock.pullInCount < 256
  holdover : ∀ start, s.clock.lock = .holdover → s.clock.holdStart = some start →
    time < start + s.clock.limit * timePerMs
  assembler : ∀ i : Fin 4, s.surfaces[i].assembler ≠ [] → time < s.surfaces[i].assemblerStart + timePerMs
  silence : ∀ i : Fin 4, s.surfaces[i].state = .online → time < s.surfaces[i].silenceStart + 500 * timePerMs
  store : ∀ p tag since, s.device.store = .writing p tag since → time < since + 300 * timePerMs
  latch : ∀ i : Fin 2, s.clock.outputs[i].waiting.isSome → s.clock.outputs[i].active.enabled = true

/-- The reply of a converter command in flight on a link that leaves ACTIVE and PAUSED (R82). -/
def abortedReplies (l : Link) : List Reply :=
  match l.relay.tag with
  | some tag => [⟨tag, 0x45#8, ⟨.aborted, false, .plain⟩⟩]
  | none => []

/-- The state LINK_CONFIG leaves (R75): enable, the new recovery mode, and for a link in FAULT its hold-off count. -/
def configuredState (enable : Bool) (recovery : Recovery) (l : Link) : LinkState :=
  match l.state, enable with
  | .off, true => .align
  | .fault, true => match recovery with
    | .park => .off
    | .auto => if 2048 ≤ l.holdOff then .align else .fault
    | .manual => .fault
  | other, true => other
  | _, false => .off

/-- The candidate list once reference `ref` can no longer supply edges: it is UNQUALIFIED and waiting (R89). -/
def withoutReference (ref : Reference) (c : ClockUnit) : List Candidate :=
  c.candidates.map fun k => if k.ref = ref then { k with qualification := .unqualified, window := none } else k

/-- The clock unit that followed `ref` when that reference is lost: in HOLDOVER, the timer at 0 (R89, R98). -/
def heldOver (ref : Reference) (c : ClockUnit) : ClockUnit :=
  { c with
    candidates := withoutReference ref c, lock := .holdover, lost := some ref, selected := none
    holdStart := some c.time, runPeriods := 0, runLong := 0
    counters := { c.counters with holdovers := bump32 c.counters.holdovers } }

/-- The link that an entry to ALIGN leaves of `l` (R65, R82): its counts at 0, DEGRADED clear, no sequence reference, the last
good frame all zeros, the relay idle. Of its frame periods only those that wait for their judgement go on, to be judged in
the new ALIGN (R76; log entries 12 and 13). The frames of a link that was OFF begin with sequence number 0 (R63). -/
def freshAlign (l : Link) : Link :=
  { l with
    state := .align, degraded := false, errors := 0, reference := none, lastGood := Vector.replicate 32 0, locked := none
    run := 0, missing := 0, goodRun := 0, alignCount := 0, fresh := true, relay := .idle
    frames := l.frames.filter FramePeriod.unjudged
    txSequence := if l.state = .off then 0 else l.txSequence }

/-- An aligned link that the controller moves to `state`, ACTIVE or PAUSED, or leaves there (R67). At a move the values
chosen for each frame period already judged will be presented where the link is now ACTIVE, and 0 where it is now PAUSED,
from the next sample period on (R62; that they are the values its judgement chose is log entry 13). -/
def movedTo (state : LinkState) (l : Link) : Link :=
  if l.state = state then l
  else { l with
    state := state
    frames := l.frames.map fun f => match f.status with
      | .judged p => { f with status := .judged { p with active := decide (state = .active) } }
      | .unstarted => f
      | .started => f }

/-- The link that an entry to FAULT for `reason` leaves of `l`, under PARK gone on to OFF with its enable cleared (R64, R68,
R82): no frame period waits any longer, and those judged before are presented as they were to be (R62). -/
def faultedLink (reason : FaultReason) (l : Link) : Link :=
  let park : Bool := decide (l.recovery = .park)
  { l with
    state := if park then .off else .fault, enable := l.enable && !park, reason := some reason, degraded := !park
    errors := if park then 0 else 255, holdOff := 0, fresh := !park, relay := .idle
    frames := l.frames.filter fun f => !f.unjudged
    counters := { l.counters with faults := bump32 l.counters.faults } }

/-- Command `c` takes link `i`, which receives, to FAULT for `reason`, and under PARK on to OFF (R68, R82, R84, R89), from
the link `counted` that the event has left of it: the command in flight is ABORTED, the candidate of the link is lost to the
clock unit, and each change of state posts its alarm, the link's before the clock unit's (the model's choice, log entry
35). No other part of the state changes. -/
def EntersFault (c : Instr) (i : Fin 8) (reason : FaultReason) (counted : Link) (s : State) : Prop :=
  let following := (s.clock.lock = .pullIn ∨ s.clock.lock = .locked) ∧ s.clock.selected = some (.link i)
  let stamp := s.gen.sampleCounter
  exec c s = .next { s with
    links := s.links.set i (faultedLink reason counted)
    clock := if following then heldOver (.link i) s.clock
      else { s.clock with candidates := withoutReference (.link i) s.clock }
    mgmt := afterAlarms
      ([.linkState i .fault true counted.pause 255 (some reason) stamp] ++
        (if following then [.clockState .holdover (some (.link i)) s.gen.rate s.clock.heldDeviation stamp] else []) ++
        if counted.recovery = .park then [.linkState i .off false counted.pause 0 none stamp] else [])
      { s.mgmt with replies := s.mgmt.replies ++ abortedReplies s.links[i] } }

/-! ### The budget and the queues (R129, R169, R174, R175, R177) -/

/-- At most 16 places are in use (R169). -/
def BudgetSound (s : State) : Prop := placesInUse s ≤ 16

/-- An update set holds at most 32 entries, no two of one kind and address (R129). -/
def UpdatesSound (set : List Update) : Prop :=
  set.length ≤ 32 ∧ (set.map fun u => (u.kind, u.address)).Nodup

/-- The queues of the transmitter and the update sets keep their bounds. -/
structure QueuesSound (s : State) : Prop where
  alarms : (s.mgmt.alarms.map fun e => e.alarm.key).Nodup
  events : s.mgmt.events.length ≤ 128
  pendingLoss : s.mgmt.pendingLoss ≤ 65535
  frames : s.mgmt.frameCount ≤ 16
  updates : ∀ i : Fin 4, UpdatesSound s.surfaces[i].updates

/-! ### Gains (R38, R39, R46, R156) -/

/-- A coefficient within its range (R38). -/
def InRange (x : Int) : Prop := -8388608 ≤ x ∧ x ≤ 8388607

/-- Every coefficient the part holds is in range, no ramp has more than 1,024 periods left, and a record whose ramp has
ended stands at its effective target. -/
structure GainsSound (s : State) : Prop where
  records : ∀ r ∈ s.engine.table, InRange r.setGain ∧ InRange r.current ∧ r.remaining ≤ 1024
  settled : ∀ r ∈ s.engine.table, r.remaining = 0 → r.current = effectiveTarget r
  automation : ∀ r ∈ s.engine.table, ∀ a, r.automation = some a → InRange a.1
  edits : ∀ e, Edit.add e ∈ s.engine.edits → InRange e.setGain
  valid : ∀ p, s.device.store = .valid p → ∀ e ∈ p.records, InRange e.setGain
  writing : ∀ p tag since, s.device.store = .writing p tag since → ∀ e ∈ p.records, InRange e.setGain
  law : ∀ k (h : k < 129), InRange s.rules.law[k]

/-! ### The frame generator (R4, R7, R8) -/

/-- A block size (R8). -/
def IsBlockSize (b : Nat) : Prop := b = 8 ∨ b = 16 ∨ b = 32 ∨ b = 64

/-- The period within the block lies below B, P and R are in range for the rate in force once a rate change has taken
effect, only a boundary in progress has work due, and no request waits at one: each has been taken before its sample
period ended (R170). -/
structure FrameSound (s : State) : Prop where
  size : IsBlockSize s.gen.blockSize
  position : s.gen.position < s.gen.blockSize ∨ s.boundary.taken = true
  playback : 1 ≤ s.gen.playback ∧ (s.boundary.rate = none → s.gen.playback ≤ maxChannels s.gen.rate.mult)
  records : 1 ≤ s.gen.records ∧ (s.boundary.rate = none → s.gen.records ≤ maxChannels s.gen.rate.mult)
  pending : ∀ c, s.uplink.pendingConfig = some c → IsBlockSize c.blockSize ∧ 1 ≤ c.playback ∧ 1 ≤ c.records
  due : ∀ c, s.boundary.config = some c → IsBlockSize c.blockSize ∧ 1 ≤ c.playback ∧ 1 ≤ c.records
  idle : s.boundary.taken = false → s.boundary = Boundary.none
  drained : s.boundary.taken = true → s.mgmt.requests = []

end Sys2Proof.Safety
end

