-- ==== Sys2Proof/WellFormed.lean ====
section
/-! DEFINITION. Which commands can occur on the lines: every field holds a value its layout can carry (R191 to R193, R196),
and the row fits what was received. The owners' own ranges are not checked here: a field outside its owner's range is
answered RANGE. -/

namespace Sys2Proof

/-- The number fits an unsigned field of `k` bytes (R191). -/
def fits (k n : Nat) : Bool := decide (n < 256 ^ k)

/-- The number fits a signed field of 4 bytes (R191). -/
def fitsCoeff (x : Int) : Bool := decide (-2147483648 ≤ x ∧ x ≤ 2147483647)

/-- The check holds of the body, where one was read. -/
def bodyOk {α : Type} (check : α → Bool) : Option α → Bool
  | none => true
  | some b => check b

def XpAddBody.wellFormed (b : XpAddBody) : Bool :=
  fits 2 b.source && fits 2 b.destination && fitsCoeff b.gain && fits 1 b.muted && fits 1 b.ramp

def PairBody.wellFormed (b : PairBody) : Bool :=
  fits 2 b.source && fits 2 b.destination

def XpGainBody.wellFormed (b : XpGainBody) : Bool :=
  fits 2 b.source && fits 2 b.destination && fitsCoeff b.gain && fits 1 b.ramp

def XpMuteBody.wellFormed (b : XpMuteBody) : Bool :=
  fits 2 b.source && fits 2 b.destination && fits 1 b.on

def XpRampBody.wellFormed (b : XpRampBody) : Bool :=
  fits 2 b.source && fits 2 b.destination && fits 1 b.ramp

def PatchListBody.wellFormed (b : PatchListBody) : Bool :=
  fits 2 b.first && fits 1 b.count

/-- Parameters of the size their fields have; an unassigned action kind is none of the five codes (R193). -/
def RawAction.wellFormed : RawAction → Bool
  | .forward label => fits 2 label
  | .driveGain src dst ramp => fits 2 src && fits 2 dst && fits 1 ramp
  | .nudgeGain src dst step => fits 2 src && fits 2 dst && fits 2 step
  | .toggleMute src dst => fits 2 src && fits 2 dst
  | .echo link address => fits 1 link && fits 2 address
  | .unassigned kind => fits 1 kind && decide (kind = 0 ∨ 5 < kind)

def RuleWriteBody.wellFormed (b : RuleWriteBody) : Bool :=
  fits 2 b.rule && fits 1 b.valid && fits 1 b.kinds && fits 2 b.address && fits 2 b.mask && fits 1 b.deadband &&
    fits 1 b.actions.length && b.actions.all RawAction.wellFormed

def RuleBlocksBody.wellFormed (b : RuleBlocksBody) : Bool :=
  fits 1 b.link && fits 2 b.start && fits 2 b.count

def LawWriteBody.wellFormed (b : LawWriteBody) : Bool :=
  fits 1 b.start && decide (b.entries.length = 8) && b.entries.all fitsCoeff

def SurfaceSendBody.wellFormed (b : SurfaceSendBody) : Bool :=
  fits 1 b.link && fits 1 b.kind && fits 2 b.address && fits 2 b.value

def SurfaceConfigBody.wellFormed (b : SurfaceConfigBody) : Bool :=
  fits 1 b.link && fits 1 b.interval

def LinkConfigBody.wellFormed (b : LinkConfigBody) : Bool :=
  fits 1 b.link && fits 1 b.enable && fits 1 b.recovery

def ConverterCommandBody.wellFormed (b : ConverterCommandBody) : Bool :=
  fits 1 b.link && fits 1 b.bytes.length

def ClockCandidatesBody.wellFormed (b : ClockCandidatesBody) : Bool :=
  fits 1 b.list.length && b.list.all (fits 1) && fits 2 b.tolerance && fits 2 b.limit && fits 1 b.revert

def ClockRateBody.wellFormed (b : ClockRateBody) : Bool :=
  fits 1 b.family && fits 1 b.mult

def WclkOutBody.wellFormed (b : WclkOutBody) : Bool :=
  fits 1 b.output && fits 1 b.enable && fits 2 b.divisor && fits 1 b.polarity

def RawPoint.wellFormed (p : RawPoint) : Bool :=
  fits 1 p.active && fits 1 p.tap && fits 2 p.slot &&
    bodyOk (fun b : Nat × Nat => fits 1 b.1 && fits 2 b.2) p.binding

def MeterPointsBody.wellFormed (b : MeterPointsBody) : Bool :=
  fits 1 b.first && fits 1 b.points.length && b.points.all RawPoint.wellFormed

def UplinkConfigBody.wellFormed (b : UplinkConfigBody) : Bool :=
  fits 1 b.blockSize && fits 2 b.records && fits 2 b.playback

def StoreWriteBody.wellFormed (b : StoreWriteBody) : Bool :=
  fits 1 b.autostart && fits 1 b.fallback

def CountersReadBody.wellFormed (b : CountersReadBody) : Bool :=
  fits 1 b.group && fits 2 b.index && fits 1 b.count && fits 1 b.clear

/-- The body holds 16 bytes of header and the containers it carries (R195). -/
def DownBlock.wellFormed (b : DownBlock) : Bool :=
  fits 2 b.number && fits 1 b.blockSize && fits 2 b.channels && decide (b.containers.length = (b.bodyLength - 16) / 4)

/-- An element address and an unsigned value field of a surface message: 12 bits each (R196). -/
def surfaceOk (address value : Nat) : Bool :=
  decide (address < 4096 ∧ value < 4096)

/-- The command can occur: its operands fit the layouts, and its row is the one its fields name. -/
def Instr.wellFormed : Instr → Bool
  | .downBlock b => b.wellFormed
  | .unknown tag kind => decide (decodeRequest ⟨tag, kind, []⟩ = .unknown tag kind)
  | .xpAdd _ b => bodyOk XpAddBody.wellFormed b
  | .xpRemove _ b => bodyOk PairBody.wellFormed b
  | .xpGain _ b => bodyOk XpGainBody.wellFormed b
  | .xpMute _ b => bodyOk XpMuteBody.wellFormed b
  | .xpRamp _ b => bodyOk XpRampBody.wellFormed b
  | .xpRead _ b => bodyOk PairBody.wellFormed b
  | .patchList _ b => bodyOk PatchListBody.wellFormed b
  | .ruleWrite _ b => bodyOk RuleWriteBody.wellFormed b
  | .ruleRead _ n => bodyOk (fits 2) n
  | .ruleBlocks _ b => bodyOk RuleBlocksBody.wellFormed b
  | .lawWrite _ b => bodyOk LawWriteBody.wellFormed b
  | .lawRead _ n => bodyOk (fits 1) n
  | .surfaceSend _ b => bodyOk SurfaceSendBody.wellFormed b
  | .surfaceStatus _ n => bodyOk (fits 1) n
  | .surfaceConfig _ b => bodyOk SurfaceConfigBody.wellFormed b
  | .linkConfig _ b => bodyOk LinkConfigBody.wellFormed b
  | .linkRestart _ n => bodyOk (fits 1) n
  | .linkPause _ n => bodyOk (fits 1) n
  | .linkResume _ n => bodyOk (fits 1) n
  | .linkStatus _ n => bodyOk (fits 1) n
  | .converterCommand _ b => bodyOk ConverterCommandBody.wellFormed b
  | .clockCandidates _ b => bodyOk ClockCandidatesBody.wellFormed b
  | .clockRate _ b => bodyOk ClockRateBody.wellFormed b
  | .wclkOut _ b => bodyOk WclkOutBody.wellFormed b
  | .meterPoints _ b => bodyOk MeterPointsBody.wellFormed b
  | .meterConfig _ n => bodyOk (fits 1) n
  | .meterThresholds _ l => bodyOk (fun l : List Nat => decide (l.length = 16) && l.all (fits 4)) l
  | .modeSetSetup _ m => bodyOk (fun m : Nat => fits 1 m && decide (m ≠ 1)) m
  | .modeSetOperate _ m => decide (m = some 1)
  | .uplinkConfig _ b => bodyOk UplinkConfigBody.wellFormed b
  | .storeWrite _ b => bodyOk StoreWriteBody.wellFormed b
  | .countersRead _ b => bodyOk CountersReadBody.wellFormed b
  | .edgeLoss candidate => decide (candidate ≠ .internal)
  | .hello _ address value => surfaceOk address value
  | .position _ address value => surfaceOk address value
  | .touch _ address value => surfaceOk address value
  | .press _ address value => surfaceOk address value
  | .turn _ address value => decide (address < 4096 ∧ -2048 ≤ value ∧ value ≤ 2047)
  | .malformedMessage _ (.restarted start) => start.msb
  | .malformedMessage _ .framing => true
  | .malformedMessage _ .stray => true
  | .malformedMessage _ .badKind => true
  | .powerOn => true
  | .powerLoss => true
  | .samplePeriod => true
  | .blockBoundary => true
  | .wclkOutLatch _ => true
  | .upBlockSent => true
  | .commitApply => true
  | .rateChange => true
  | .uplinkConfigEffect => true
  | .resetBoundary => true
  | .uplinkLoss => true
  | .fallbackDecision => true
  | .request _ => true
  | .badFrame => true
  | .patchCommit _ _ => true
  | .patchDiscard _ _ => true
  | .clockStatus _ _ => true
  | .deviceReset _ _ => true
  | .deviceInfo _ _ => true
  | .storeStatus _ _ => true
  | .storeWriteComplete => true
  | .frameStart _ _ _ => true
  | .converterFrame _ _ => true
  | .frameIncomplete _ => true
  | .missingFrame _ => true
  | .noSync _ => true
  | .holdOffExpiry _ => true
  | .commandTimeout _ => true
  | .wordclockEdge _ _ => true
  | .pullInCount => true
  | .holdoverExpiry => true
  | .keepalive _ => true
  | .messageIncomplete _ => true
  | .silenceTimerExpiry _ => true
  | .sendIntervalExpiry _ => true
  | .meterReport => true
  | .meterPromotion => true
  | .arbiterChoice => true
  | .messageFrameEnd => true

end Sys2Proof
end

