-- ==== Sys2Proof/Certificates/Slice0/Obligations.lean ====
section
/-! DEFINITION. The statements for the provers, taken from the numbered rules of the manual: the queue and the taking of
requests, the laws every step keeps, the layouts, then the commands family by family. `replied` and `taken`
(Safety.lean) say what the taking of a request leaves beside its owner's effect: an equation with them says that every
other part of the state is as it was. -/

open Sys2Proof Sys2Proof.Machine Sys2Proof.Safety

/-! ### The queue of commands and the taking of requests -/

/-- With a command at the front of the queue, a step is that command run on the state with the queue's rest. -/
def Obligations.StepRunsTheFrontCommand : Prop :=
  ∀ (c : Instr) (rest : List Instr) (s : State),
    step { s with pending := c :: rest } = exec c { s with pending := rest }

/-- Every step answers a next state whose queue is the rest of the queue: no command stops the part and none touches the
commands that wait. On an empty queue the part idles (the model's choice, log entry 11), and without power nothing but
POWER_ON has an effect (the model's choice, log entry 2). A command taken at an open block boundary that is none of the
boundary's own falls in the sample period that begins there: SAMPLE_PERIOD comes about first (the model's choice, log entry
7), and the command then does what the statements about it say of a state within a period. -/
def Obligations.EveryStepGoesOn : Prop :=
  (∀ s : State,
    (∃ t, step s = .next t ∧ t.pending = s.pending.tail) ∧ (s.pending = [] → step s = .next s)) ∧
  (∀ (c : Instr) (s : State), s.powered = false → c ≠ .powerOn → exec c s = .next s) ∧
  ∀ (c : Instr) (s : State), s.powered = true → s.boundary.taken = true → c ∉ boundaryCommands →
    ∃ t, exec .samplePeriod s = .next t ∧ InPeriod t ∧ exec c s = exec c t

/-- R170: the taking of requests. A request command whose request is not the oldest waiting one: with no request waiting
it is the arrival of the request followed by its taking, or by nothing where no place is free; with another request
waiting ahead it changes nothing, since requests are taken in order of arrival (that a command may stand for both steps
is the model's choice, log entry 3). A body of the wrong length for its kind is answered RANGE, whatever the state, and
changes nothing. -/
def Obligations.RequestCommandsTakeTheOldestRequest : Prop :=
  (∀ (r : RequestFrame) (s : State), InPeriod s →
     (s.mgmt.requests = [] →
       exec (decodeRequest r) s =
         if placesInUse (hearFrame s) < 16 then exec (decodeRequest r) (arriveRequest r s) else exec (.request r) s) ∧
     (∀ q rest, s.mgmt.requests = q :: rest → decodeRequest q ≠ decodeRequest r → exec (decodeRequest r) s = .next s)) ∧
  ∀ (tag : Byte) (rest : List RequestFrame) (s : State) (c : Instr) (kind : Byte),
    (c, kind) ∈ ([(.xpAdd tag none, 0x10#8), (.xpRemove tag none, 0x11#8), (.xpGain tag none, 0x12#8),
      (.xpMute tag none, 0x13#8), (.xpRamp tag none, 0x14#8), (.xpRead tag none, 0x15#8), (.patchList tag none, 0x16#8),
      (.patchCommit tag none, 0x17#8), (.patchDiscard tag none, 0x18#8), (.ruleWrite tag none, 0x20#8),
      (.ruleRead tag none, 0x21#8), (.ruleBlocks tag none, 0x22#8), (.lawWrite tag none, 0x23#8),
      (.lawRead tag none, 0x24#8), (.surfaceSend tag none, 0x30#8), (.surfaceStatus tag none, 0x31#8),
      (.surfaceConfig tag none, 0x32#8), (.linkConfig tag none, 0x40#8), (.linkRestart tag none, 0x41#8),
      (.linkPause tag none, 0x42#8), (.linkResume tag none, 0x43#8), (.linkStatus tag none, 0x44#8),
      (.converterCommand tag none, 0x45#8), (.clockCandidates tag none, 0x50#8), (.clockRate tag none, 0x51#8),
      (.clockStatus tag none, 0x52#8), (.wclkOut tag none, 0x53#8), (.meterPoints tag none, 0x60#8),
      (.meterConfig tag none, 0x61#8), (.meterThresholds tag none, 0x62#8), (.modeSetSetup tag none, 0x70#8),
      (.uplinkConfig tag none, 0x71#8), (.deviceReset tag none, 0x72#8), (.deviceInfo tag none, 0x73#8),
      (.storeWrite tag none, 0x74#8),
      (.storeStatus tag none, 0x75#8), (.countersRead tag none, 0x76#8)] : List (Instr × Byte)) →
    Takes c rest s → exec c s = .next (replied rest tag kind ⟨.range, false, .plain⟩ s)

/-! ### Laws every step keeps -/

/-- R15, R25, R31, R186: the patch table stays sorted, without a repeated pair and within its limits; the change list
stays one that fits it, and a sealed list one that validation accepts; a stored patch stays a valid table. -/
def Obligations.StepKeepsPatchSound : Prop :=
  ∀ s t : State, PatchSound s → step s = .next t → PatchSound t

/-- R16, R151, R153: a touch hold always belongs to a link that is ONLINE, in OPERATE, and only a held record has an
automation gain. -/
def Obligations.StepKeepsHoldsSound : Prop :=
  ∀ s t : State, HoldsSound s → step s = .next t → HoldsSound t

/-- R111, R112: the next-play number follows the block number, and the playback ring holds at most 4 blocks, no two of
one number, all in the window. -/
def Obligations.StepKeepsRingSound : Prop :=
  ∀ s t : State, RingSound s → step s = .next t → RingSound t

/-- R60, R62, R64, R65, R68 to R72: the counts of every converter link stay in their ranges, OFF, ALIGN and FAULT keep
their error counter, DEGRADED flag and idle relay, and in ALIGN and PAUSED no frame period has values to present. A link
holds the frame periods of the sample period in progress and the one before it, judged in turn, and none waits for its
judgement in OFF and FAULT, where the last of them has no values to present: from the period on in which the judgement
that left the link there acts, it presents 0 (what a sample period presents is `LinksPresentTheirInputs`). In the period
of an entry the count of ALIGN or FAULT is 0. -/
def Obligations.StepKeepsLinksSound : Prop :=
  ∀ s t : State, LinksSound s → step s = .next t → LinksSound t

/-- R169: the 16 places are never exceeded. -/
def Obligations.StepKeepsBudgetSound : Prop :=
  ∀ s t : State, BudgetSound s → step s = .next t → BudgetSound t

/-- R129, R174, R175, R177: one alarm to a key, at most 128 events, at most 16 message frames after an UP block, and at
most 32 updates of distinct keys to a surface link. -/
def Obligations.StepKeepsQueuesSound : Prop :=
  ∀ s t : State, QueuesSound s → step s = .next t → QueuesSound t

/-- R38, R39, R46, R156: every coefficient stays in the coefficient range, and a record whose ramp has ended stands at its
effective target. -/
def Obligations.StepKeepsGainsSound : Prop :=
  ∀ s t : State, GainsSound s → step s = .next t → GainsSound t

/-- R4, R7, R8, R170: the block size is one of the four, the period within the block lies below it, the channel counts stay
in range for the rate, and at an open block boundary no request of the ended period waits. -/
def Obligations.StepKeepsFrameSound : Prop :=
  ∀ s t : State, FrameSound s → step s = .next t → FrameSound t

/-- Each of these laws holds in the state after reset. -/
def Obligations.ResetStateIsSound : Prop :=
  PatchSound State.reset ∧ HoldsSound State.reset ∧ RingSound State.reset ∧ LinksSound State.reset ∧
    BudgetSound State.reset ∧ QueuesSound State.reset ∧ GainsSound State.reset ∧ FrameSound State.reset

/-! ### Layouts -/

/-- R191, R193: every request command whose operands fit their fields is read back from the body that carries it, every
operand at every value its field can hold. The order of the fields that the layouts chapter does not place is the order of
the owner's rule (log entry 19), and that a MODE_SET body has two commands is the table's split (log entry 27). -/
def Obligations.RequestsDecodeWhatTheyEncode : Prop :=
  ∀ (i : Instr) (r : RequestFrame), i.wellFormed = true → encodeRequest i = some r → decodeRequest r = i

/-- R110, R122, R194, R196: frames and messages. A REQUEST frame and a DOWN block frame are read back from their bytes,
and a frame of any other kind, a frame whose check differs a frame shorter than 12 bytes and a frame whose length is not
12 more than the body length it states, longer or shorter, are bad. A REQUEST frame whose body is too short for a tag
and a kind is valid too, and its kind is that of no request (what it does not hold is a free value, log entry 16). The
four bytes of a surface message, taken one after another by an assembler with no message open, give on the fourth the
command of its kind with its address and value, or MALFORMED_MESSAGE for a kind that is not inbound. -/
def Obligations.FramesAndMessagesDecode : Prop :=
  (∀ r : RequestFrame, r.fields.length + 2 < 2 ^ 32 →
    decodeFrame (encodeFrame 0x02#8 (r.tag :: r.kind :: r.fields)) = .request r) ∧
  (∀ body : List Byte, body.length < 2 → ∃ r, decodeFrame (encodeFrame 0x02#8 body) = .request r ∧
    decodeRequest r = .unknown r.tag r.kind ∧ ∀ tag, body = [tag] → r.tag = tag) ∧
  (∀ body : List Byte, body.length < 2 ^ 32 → decodeFrame (encodeFrame 0x01#8 body) = .downBlock (decodeDownBlock body)) ∧
  (∀ (kind : Byte) (body : List Byte), kind ≠ 0x01#8 → kind ≠ 0x02#8 → decodeFrame (encodeFrame kind body) = .badFrame) ∧
  (∀ (held : List Byte) (check : BitVec 32), check ≠ check32 held →
    decodeFrame (held ++ toBytes 4 check.toNat) = .badFrame) ∧
  (∀ frame : List Byte, frame.length < 12 ∨ frame.length ≠ 12 + ofBytes ((frame.drop 4).take 4) →
    decodeFrame frame = .badFrame) ∧
  ∀ (link : Fin 4) (kind address : Nat) (value : BitVec 12), kind < 16 → address < 4096 →
    ∃ b0 b1 b2 b3, surfaceBytes kind address value = [b0, b1, b2, b3] ∧
      assembleByte link [] (some b0) = ([b0], none) ∧
      assembleByte link [b0] (some b1) = ([b0, b1], none) ∧
      assembleByte link [b0, b1] (some b2) = ([b0, b1, b2], none) ∧
      assembleByte link [b0, b1, b2] (some b3) = ([], some (
        if kind = 1 then .position link address value.toNat
        else if kind = 2 then .touch link address value.toNat
        else if kind = 3 then .press link address value.toNat
        else if kind = 4 then .turn link address value.toInt
        else if kind = 5 then .hello link address value.toNat
        else if kind = 6 then .keepalive link
        else .malformedMessage link .badKind))

/-! ### Power and the sample period -/

/-- R11, R17, R85, R107, R186 to R189: POWER_ON and POWER_LOSS. Without a patch to start from (a store that is EMPTY, or
VALID with the autostart flag clear) the part stands as after reset, whatever it held before; with a stored patch under
autostart it starts in OPERATE at the stored rate with the stored records, each after its first ramp step, and every
link in ALIGN. POWER_LOSS keeps the store and its completed-write count; a write in flight leaves it INCOMPLETE, and the
next POWER_ON reports that with a STORE alarm. Everything else is lost: the model holds the values of reset there until
the next POWER_ON. The queue of commands and the counter of the free values belong to the model and go on (log entries
2, 5). -/
def Obligations.PowerOnAndPowerLoss : Prop :=
  (∀ s : State,
     ((s.device.store = .empty ∨ ∃ p, s.device.store = .valid p ∧ p.autostart = false) →
       exec .powerOn s = .next
         { State.reset with
           pending := s.pending, free := s.free
           device := { Device.reset with store := s.device.store, completed := s.device.completed } }) ∧
     (∀ p, s.device.store = .valid p → p.autostart = true →
       ∃ t, exec .powerOn s = .next t ∧ t.powered = true ∧ t.pending = s.pending ∧
         t.gen = { rate := p.rate, blockSize := 16, records := maxChannels p.rate.mult,
                   playback := maxChannels p.rate.mult, sampleCounter := 0, blockNumber := 0, position := 0,
                   blockStamp := 0, periodMode := .operate } ∧
         t.engine.table = p.records.map (fun e => rampStep (joinRecord e)) ∧
         t.engine.edits = [] ∧ t.engine.commit = none ∧
         (∀ i : Fin 8, t.links[i].state = .align ∧ t.links[i].enable = true ∧ t.links[i].mask = 0xFFFFFFFF#32 ∧
           t.links[i].recovery = .auto) ∧
         t.clock.lock = .free ∧ t.clock.candidates.map (·.ref) = [.internal] ∧
         t.device = { mode := .operate, store := .valid p, completed := s.device.completed, resetState := .idle,
                      resets := 0 })) ∧
  ∀ s : State, s.powered = true →
    ∃ t, exec .powerLoss s = .next t ∧
      t = { State.reset with
        pending := s.pending, powered := false, free := s.free
        device := { Device.reset with store := t.device.store, completed := s.device.completed } } ∧
      ((∀ p tag since, s.device.store ≠ .writing p tag since) → t.device.store = s.device.store) ∧
      (∀ p tag since, s.device.store = .writing p tag since → t.device.store = .incomplete ∧
        ∃ u, exec .powerOn t = .next u ∧ u.device.store = .incomplete ∧ u.device.mode = .setup ∧
          u.mgmt.alarms = [⟨.store .incomplete none s.device.completed 0, 0⟩])

/-- R7, R8, R9, R60 to R62, R170: SAMPLE_PERIOD. The sample counter advances by one, modulo 2^32; the period within the
block advances or, at a block boundary, returns to 0 with the block number one higher, modulo 65,536; the mode of the
new period is the device mode. The model's choices in it: local time advances here, by the length of the period that
ended (log entry 8), a boundary is settled here where it was not commanded, and one that was commanded is closed with
nothing left due (log entry 7). The end of a period is a run of the commands of what has to come about by it, each
acting where it is due: the waiting requests, the links' windows and counts, the clock unit's losses, count and timer,
the surfaces' timers, a store write 300 ms old, the output latches, in the order of log entry 6; the last of a block
goes on with BLOCK_BOUNDARY, and the steps of the boundary follow. So at that end none of them is outstanding: no
request waits, no closed window is unjudged, no count or timer stands at its limit, and a send interval that has run out
has restarted; within a block none is overdue in the period that starts. Against the settled state the start of a period
changes the frame generator, the clock unit's time and output positions, the links, the table's ramps and the mix, the
peaks and the UP block being gathered, and nothing else. Where the last period of a block is in progress SAMPLE_PERIOD
does what BLOCK_BOUNDARY and then SAMPLE_PERIOD do. Where no request waits and none of these events would change
anything, nothing is settled: the state that the statements about SAMPLE_PERIOD and BLOCK_BOUNDARY call settled is then
the state before. -/
def Obligations.SamplePeriodAdvances : Prop :=
  (∀ s : State, s.powered = true →
     ∃ t, exec .samplePeriod s = .next t ∧ t.powered = true ∧ t.pending = s.pending ∧
       t.gen.sampleCounter = (s.gen.sampleCounter + 1) % 2 ^ 32 ∧
       t.clock.ticks = s.clock.ticks + s.clock.periodTicks ∧ t.clock.time = s.clock.time + s.clock.periodTime ∧
       t.boundary = Boundary.none ∧ t.gen.periodMode = t.device.mode ∧
       (s.boundary.taken = false ∨ s.mgmt.requests = [] → t.mgmt.requests = []) ∧
       (s.boundary = Boundary.none → s.gen.position + 1 < s.gen.blockSize →
         t.gen.position = s.gen.position + 1 ∧ t.gen.blockNumber = s.gen.blockNumber ∧
         t.gen.blockSize = s.gen.blockSize ∧ t.gen.rate = s.gen.rate) ∧
       (s.boundary.taken = false → s.gen.blockSize ≤ s.gen.position + 1 →
         t.gen.position = 0 ∧ t.gen.blockNumber = (s.gen.blockNumber + 1) % 65536 ∧
         t.gen.blockStamp = t.gen.sampleCounter) ∧
       (s.boundary.taken = true → t.gen.position = 0 ∧ t.gen.blockNumber = s.gen.blockNumber)) ∧
  (∀ s w : State, s.powered = true → settle s = w →
    ∃ t, exec .samplePeriod s = .next t ∧
      t = { w with
        gen := { w.gen with
          sampleCounter := t.gen.sampleCounter, position := t.gen.position, periodMode := w.device.mode }
        clock := { w.clock with
          ticks := t.clock.ticks, time := t.clock.time, periodTicks := t.clock.periodTicks
          periodTime := t.clock.periodTime, runPeriods := t.clock.runPeriods, runLong := t.clock.runLong
          outputs := t.clock.outputs }
        links := t.links, boundary := Boundary.none, free := w.free + 1
        engine := { w.engine with
          table := w.engine.table.map rampStep, outputs := t.engine.outputs, clipFlags := t.engine.clipFlags
          clips := t.engine.clips }
        meter := { w.meter with points := t.meter.points, setupSeen := t.meter.setupSeen }
        mgmt := { w.mgmt with gathered := t.mgmt.gathered } }) ∧
  (∀ s t : State, InPeriod s → s.gen.blockSize ≤ s.gen.position + 1 → exec .blockBoundary s = .next t →
    exec .samplePeriod s = exec .samplePeriod t) ∧
  (∀ s : State, s.powered = true → settle s = afterAll
    [.commitApply, .rateChange, .uplinkConfigEffect, .uplinkLoss, .fallbackDecision, .meterReport, .meterPromotion,
      .resetBoundary]
    (if s.boundary.taken then s else if s.gen.blockSize ≤ s.gen.position + 1 then afterAll [.blockBoundary] s
      else endPeriod s)) ∧
  (∀ s : State, InPeriod s →
    let ofLink (i : Fin 8) : List Instr :=
      [.missingFrame i, .frameIncomplete i, .noSync i, .holdOffExpiry i, .commandTimeout i]
    let ofSurface (u : State) (i : Fin 4) : State := afterAll
      ((if u.surfaces[i].assembler = [] then [] else [.messageIncomplete i]) ++
        [.silenceTimerExpiry i, .sendIntervalExpiry i]) u
    let u1 := afterAll (s.mgmt.requests.map decodeRequest) s
    let u2 := afterAll (([0, 1, 2, 3, 4, 5, 6, 7] : List (Fin 8)).flatMap ofLink) u1
    let u3 := afterAll (u2.clock.candidates.map (fun k => .edgeLoss k.ref) ++ [.pullInCount, .holdoverExpiry]) u2
    let u4 := ([0, 1, 2, 3] : List (Fin 4)).foldl ofSurface u3
    let u5 := match u4.device.store with
      | .writing _ _ since =>
        if since + 300 * timePerMs ≤ u4.clock.time + u4.clock.periodTime then afterAll [.storeWriteComplete] u4 else u4
      | _ => u4
    endPeriod s = afterAll [.wclkOutLatch 0, .wclkOutLatch 1] u5) ∧
  (∀ s w : State, InPeriod s → endPeriod s = w →
    let time := s.clock.time + s.clock.periodTime
    w.mgmt.requests = [] ∧ (LinksSound s → ∀ i : Fin 8, LinkSettled w.links[i]) ∧
      TimersKept (s.clock.ticks + s.clock.periodTicks) time w ∧
      (∀ i : Fin 2, w.clock.outputs[i].waiting.isSome →
        w.clock.outputs[i].position ≠ some (w.clock.outputs[i].active.divisor - 1)) ∧
      ∀ i : Fin 4, let f := s.surfaces[i]
        f.intervalStart + f.interval * timePerMs ≤ time →
          w.surfaces[i].intervalStart = f.intervalStart + f.interval * timePerMs) ∧
  (∀ s t : State, s.powered = true → s.boundary = Boundary.none → s.gen.position + 1 < s.gen.blockSize →
    exec .samplePeriod s = .next t →
    TimersKept t.clock.ticks t.clock.time t ∧
      (LinksSound s → ∀ i : Fin 8, let l := t.links[i]
        (l.state = .align → l.alignCount < 4096) ∧ (l.state = .fault → l.recovery = .auto → l.holdOff < 2048) ∧
          ∀ tag count gathered, l.relay = .awaiting tag count gathered → count < 256)) ∧
  ∀ s : State, InPeriod s → s.mgmt.requests = [] →
    (∀ c, (∃ i : Fin 8, c = .missingFrame i ∨ c = .frameIncomplete i ∨ c = .noSync i ∨ c = .holdOffExpiry i ∨
        c = .commandTimeout i) ∨ (∃ ref, c = .edgeLoss ref) ∨ (∃ i : Fin 4, c = .silenceTimerExpiry i ∨
        c = .sendIntervalExpiry i) ∨ (∃ i : Fin 2, c = .wclkOutLatch i) ∨
        c ∈ [Instr.pullInCount, .holdoverExpiry] → exec c s = .next s) →
    (∀ i : Fin 4, s.surfaces[i].assembler = [] ∨ exec (.messageIncomplete i) s = .next s) →
    (∀ p tag since, s.device.store = .writing p tag since →
      s.clock.time + s.clock.periodTime < since + 300 * timePerMs) →
    endPeriod s = s ∧
    ((∀ c ∈ [Instr.blockBoundary, .commitApply, .rateChange, .uplinkConfigEffect, .uplinkLoss, .fallbackDecision,
        .meterReport, .meterPromotion, .resetBoundary], exec c s = .next s) → settle s = s)

/-- R86, R87, R103: the length of the sample period that SAMPLE_PERIOD starts, by the clock unit as it stands once what
has to come about by the end of the period before has come about (in the order of log entry 6). FREE: nominal. PULL_IN:
between the length at entry and the reference's period, and that period itself where the edges that a period of the
steering can hold bring the count to 256, so that the lock may fall in it (the steering is free, log entry 5). LOCKED:
the period ends, and the next one starts, at the held offset from the reference's latest edge but for whole periods of
the reference, more than half a period and at most one and a half away, and so one period after the start where the
edges come evenly (the reference's period by its edges is log entry 9). HOLDOVER: m div 64 or one more, where any run of
64 that starts with at most m mod 64 longer periods ahead of it ends with m mod 64 of them (log entry 23; their place is
free, log entry 5). Local time goes on by the period that ended (log entry 8). An enabled word clock output moves on by
one, from D − 1 to 0; its level is the table of R103. -/
def Obligations.SamplePeriodLengths : Prop :=
  (∀ s w : State, s.powered = true → settle s = w →
    ∃ t, exec .samplePeriod s = .next t ∧
      (let c := w.clock
      let u := t.clock
      let p := referencePeriod c
      u.lock = c.lock ∧ u.selected = c.selected ∧ u.ticks = c.ticks + c.periodTicks ∧ u.time = c.time + c.periodTime ∧
      u.periodTime = (match t.gen.rate.family with
        | .k48 => 147 * u.periodTicks
        | .k44 => 160 * u.periodTicks) ∧
      (c.lock = .free → u.periodTicks = match t.gen.rate.mult with
        | .x1 => 512
        | .x2 => 256
        | .x4 => 128) ∧
      (c.lock = .pullIn → min c.entryLength p ≤ u.periodTicks ∧ u.periodTicks ≤ max c.entryLength p ∧
        (256 ≤ c.pullInCount + (max c.entryLength p / p + 2) → u.periodTicks = p)) ∧
      (∀ e, c.lock = .locked → latestEdge c = some e → 0 < p →
        ∃ n : Int, (u.ticks : Int) + u.periodTicks = e + c.lockOffset + n * p ∧ p < 2 * u.periodTicks ∧
          2 * u.periodTicks ≤ 3 * p) ∧
      (c.lock = .locked → latestEdge c = none → u.periodTicks = p) ∧
      (c.lock = .holdover →
        let m := c.holdCount.getD 0
        let begun := if 64 ≤ c.runPeriods then 0 else c.runPeriods
        let long := if 64 ≤ c.runPeriods then 0 else c.runLong
        u.runPeriods = begun + 1 ∧
        (u.periodTicks = m / 64 ∧ u.runLong = long ∨ u.periodTicks = m / 64 + 1 ∧ u.runLong = long + 1) ∧
        (long ≤ m % 64 → m % 64 + begun ≤ 64 + long →
          u.runLong ≤ m % 64 ∧ m % 64 + u.runPeriods ≤ 64 + u.runLong ∧ (u.runPeriods = 64 → u.runLong = m % 64))) ∧
      ∀ j : Fin 2, u.outputs[j].active = c.outputs[j].active ∧ u.outputs[j].waiting = c.outputs[j].waiting ∧
        u.outputs[j].position =
          if c.outputs[j].active.enabled then
            match c.outputs[j].position with
            | none => some 0
            | some k => some (if k + 1 < c.outputs[j].active.divisor then k + 1 else 0)
          else none)) ∧
  ∀ o : WclkOutput,
    (o.active.enabled = false → o.level = (false, false)) ∧
    (∀ k, o.active.enabled = true → o.position = some k → o.active.divisor = 1 →
      o.level = (!o.active.inverted, o.active.inverted)) ∧
    (∀ k, o.active.enabled = true → o.position = some k → o.active.divisor ≠ 1 →
      o.level = if k < o.active.divisor / 2 then (!o.active.inverted, !o.active.inverted)
        else (o.active.inverted, o.active.inverted))

/-- R60, R62, R72, R73: what a converter link presents in the sample period that SAMPLE_PERIOD starts, by the link as it
stands once what has to come about by the end of the period before has come about (in the order of log entry 6). The
values that its judgement gave the frame period two before are presented where they are those of a link in ACTIVE (log
entry 13), in the slots that the rate carries and the mask enables, and 0 everywhere else; a repeat is counted as
concealed, a run of 5 or more as silenced. The frame period before stays to be presented next, and a receive window opens
in ALIGN, ACTIVE and PAUSED. -/
def Obligations.LinksPresentTheirInputs : Prop :=
  ∀ s w : State, s.powered = true → settle s = w →
    ∃ t, exec .samplePeriod s = .next t ∧ ∀ i : Fin 8,
      let l := w.links[i]
      let u := t.links[i]
      let due : Option Presentation := (l.frames.find? fun f => decide (f.age = 1)).bind fun f => match f.status with
        | .judged p => some p
        | _ => none
      (∀ p, due = some p →
        (∀ k (h : k < 32), u.presented[k] =
          if p.active = true ∧ k < slotsPerLink t.gen.rate.mult ∧ l.mask.getLsbD k = true then p.samples[k] else 0) ∧
        u.counters = (if p.active then
          match p.choice with
          | .good => l.counters
          | .repeated => { l.counters with concealed := bump32 l.counters.concealed }
          | .silent => { l.counters with silenced := bump32 l.counters.silenced }
        else l.counters)) ∧
      (due = none → (∀ k (h : k < 32), u.presented[k] = 0) ∧ u.counters = l.counters) ∧
      u.frames = ((l.frames.filter fun f => decide (f.age = 0)).map fun f => { f with age := 1 }) ++
        if l.state = .align ∨ l.state = .active ∨ l.state = .paused then [⟨0, .unstarted⟩] else []

/-- R63, R65, R68, R73, R80, R81: the part's own converter frame of the sample period that SAMPLE_PERIOD starts, and the
counts of the frame period that ends, by the link as it stands once what has to come about by then has come about (in the
order of log entry 6). A link in OFF sends none. Any other sends one under the next sequence number with its state and the
rate, in ACTIVE with the y of its enabled destinations of the period before and 0 elsewhere; in ACTIVE and PAUSED a relay
in SENDING gives it its next byte, the marker first, and after the frame of the last byte it is AWAITING, its reply period
count 0 and then one higher at each end. The ALIGN count and the hold-off count grow but in the period of their entry (log
entry 12). Nothing else of the link changes but what `LinksPresentTheirInputs` says. -/
def Obligations.LinksSendTheirFrames : Prop :=
  ∀ s w : State, s.powered = true → settle s = w →
    ∃ t, exec .samplePeriod s = .next t ∧ ∀ i : Fin 8,
      let l := w.links[i]
      let u := t.links[i]
      let carries : Bool := decide (l.state = .active ∨ l.state = .paused)
      (l.state = .off → u.txFrame = none ∧ u.txSequence = l.txSequence) ∧
      (l.state ≠ .off → ∃ frame, u.txFrame = some frame ∧ u.txSequence = l.txSequence + 1 ∧
        frame.sequence = l.txSequence ∧ frame.state = l.state ∧ frame.rate = t.gen.rate ∧
        frame.slots.length = slotsPerLink t.gen.rate.mult ∧
        (∀ k x, frame.slots[k]? = some x →
          x = if l.state = .active ∧ l.mask.getLsbD k = true then (w.engine.outputs)[32 * i.val + k]?.getD 0
            else 0) ∧
        (∀ tag b rest, carries = true → l.relay = .sending tag (b :: rest) → frame.command = b) ∧
        ((carries = false ∨ ∀ tag b rest, l.relay ≠ .sending tag (b :: rest)) → frame.command = 0#8)) ∧
      u.relay = (match l.relay with
        | .idle => .idle
        | .sending tag [] => .awaiting tag 0 none
        | .sending tag (b :: rest) => if carries then .sending tag rest else .sending tag (b :: rest)
        | .awaiting tag count gathered => .awaiting tag (count + 1) gathered) ∧
      u = { l with
        alignCount := if l.state = .align ∧ l.fresh = false then l.alignCount + 1 else l.alignCount
        holdOff := if l.state = .fault ∧ l.fresh = false then bump 2048 l.holdOff else l.holdOff
        fresh := false, relay := u.relay, txSequence := u.txSequence, txFrame := u.txFrame, frames := u.frames
        presented := u.presented, counters := u.counters }

/-- R48 to R57: the mix of the sample period that SAMPLE_PERIOD starts. Every destination takes the exact sum of its live
records, each source's value times the record's current coefficient after its step, rounded once with halves up and
saturated once; a bus read as a source has its value of the period before; where saturation changed the value the clip
flag is raised and the clip counter is one higher. Bus values and clip counters are read as they stand once what has to
come about by the end of the period before has come about (in the order of log entry 6): where DEVICE_RESET acts at the
boundary they are 0, otherwise the bus values, and where no request was waiting the clip counters, are those of the state
before. -/
def Obligations.MixOfASamplePeriod : Prop :=
  ∀ s w : State, s.powered = true → settle s = w →
    (∃ t, exec .samplePeriod s = .next t ∧
      ∀ d : Slot,
        let x (n : Slot) : Int := match slotKind n with
          | .converter link slot => (t.links[link].presented)[slot]?.getD 0
          | .uplink c => match t.uplink.playing with
            | none => 0
            | some samples => samples.getD (t.gen.position * t.gen.playback + c) 0
          | .bus b => (w.engine.outputs)[512 + b]?.getD 0
        let acc : Int := ((t.engine.table.filter fun r => decide (r.destination = d) && live t.gen r).map
          fun r => x r.source * r.current).sum
        let rounded : Int := (acc + 524288) / 1048576
        let saturated : Int := if rounded < -8388608 then -8388608 else if 8388607 < rounded then 8388607 else rounded
        let produced : Bool := decide (t.gen.periodMode = .operate) && presentDestination t.gen d
        let clipped : Bool := produced && decide (saturated ≠ rounded)
        t.engine.outputs[d] = (if produced then saturated else 0) ∧
        (d ∈ t.engine.clipFlags ↔ clipped = true) ∧
        t.engine.clips[d] =
          (if clipped then bump 65535 w.engine.clips[d] else w.engine.clips[d])) ∧
    (s.boundary.reset = false → s.device.resetState ≠ .ready →
      w.engine.outputs = s.engine.outputs ∧
      (s.mgmt.requests = [] → w.engine.clips = s.engine.clips)) ∧
    (s.boundary.taken = true ∧ s.boundary.reset = true ∨
        s.boundary.taken = false ∧ s.gen.blockSize ≤ s.gen.position + 1 ∧ s.device.resetState = .ready →
      ∀ d : Slot, w.engine.outputs[d] = 0 ∧ w.engine.clips[d] = 0)

/-- R43, R46, R47: a ramp. One step moves current by the difference over the remaining count, truncated toward zero, and
never past the target; after as many steps as remain, current is the target; a record at rest is not stepped; and
SAMPLE_PERIOD steps every record once after what comes about by the end of the period before, in the order in which the
model settles it (log entry 6). -/
def Obligations.RampsReachTheirTarget : Prop :=
  (∀ r : Crosspoint, 0 < r.remaining → rampStep r =
    { r with current := r.current + (effectiveTarget r - r.current).tdiv r.remaining, remaining := r.remaining - 1 }) ∧
  (∀ r : Crosspoint, r.remaining = 0 → rampStep r = r) ∧
  (∀ r : Crosspoint, min r.current (effectiveTarget r) ≤ (rampStep r).current ∧
    (rampStep r).current ≤ max r.current (effectiveTarget r)) ∧
  (∀ r : Crosspoint, 0 < r.remaining →
    (rampStep^[r.remaining] r).current = effectiveTarget r ∧ (rampStep^[r.remaining] r).remaining = 0) ∧
  (∀ s w : State, s.powered = true → settle s = w →
    ∃ t, exec .samplePeriod s = .next t ∧ t.engine.table = w.engine.table.map rampStep)

/-- R54, R57, R108, R162: the meter unit's and the UP block's part of the sample period that SAMPLE_PERIOD starts,
beside the mix of `MixOfASamplePeriod`. In OPERATE every active point takes the magnitude of its tap into its peak, a
source's value or a destination's y and 0 for an absent number, and a destination point the clip flag; an inactive point
stays as it was. In SETUP the peaks stand and the record of a SETUP period is made. The row of the R record channels' y
joins the UP block being gathered. Both go on from what stands once the period before is settled (log entry 6). -/
def Obligations.PeaksAndRowsOfAPeriod : Prop :=
  ∀ s w : State, s.powered = true → settle s = w →
    ∃ t, exec .samplePeriod s = .next t ∧
      (let m := w.meter
      let x (n : Slot) : Int := match slotKind n with
        | .converter link slot => (t.links[link].presented)[slot]?.getD 0
        | .uplink c => match t.uplink.playing with
          | none => 0
          | some samples => samples.getD (t.gen.position * t.gen.playback + c) 0
        | .bus b => (w.engine.outputs)[512 + b]?.getD 0
      let seen (q : MeterPoint) : Int := match q.tap with
        | .source => if presentSource t.gen q.slot then x q.slot else 0
        | .destination => if presentDestination t.gen q.slot then t.engine.outputs[q.slot] else 0
      t.meter = { m with points := t.meter.points, setupSeen := t.meter.setupSeen } ∧
      (t.gen.periodMode = .operate → t.meter.setupSeen = m.setupSeen ∧ ∀ n : Fin 64,
        t.meter.points[n] =
          if m.points[n].active then
            { m.points[n] with
              peak := max m.points[n].peak (seen m.points[n]).natAbs
              clipSeen := m.points[n].clipSeen ||
                decide (m.points[n].tap = .destination ∧ m.points[n].slot ∈ t.engine.clipFlags) }
          else m.points[n]) ∧
      (t.gen.periodMode = .setup → t.meter.setupSeen = true ∧ t.meter.points = m.points) ∧
      ∃ row : List Int, t.mgmt.gathered = w.mgmt.gathered ++ [row] ∧ row.length = t.gen.records ∧
        ∀ c < t.gen.records, row[c]? = some ((t.engine.outputs)[256 + c]?.getD 0))

/-! ### The block boundary -/

/-- R8, R10, R33, R101, R108, R109, R115, R118, R163, R176, R190: BLOCK_BOUNDARY in the last sample period of a block
period, which ends there with everything that falls by its end (the requests that wait among it, R170; the order is log
entry 6). The block number advances and what the boundary makes due is noted for rows of their own (the model's choice,
log entry 7): a sealed commit, a pending rate or configuration that differs from the one in force (cancelled where
DEVICE_RESET acts), a reset, a fallback decision, a meter report (none where DEVICE_RESET acts). The UP block of the
block period that ends is next on the lane, behind a frame being sent; its header's mode is the one that governed its
last sample period (log entry 15). A report in the meter slot is one boundary older, held at 255. What play time does is
`PlayTimeTakesTheDueBlock`; nothing else changes. In any other period BLOCK_BOUNDARY changes nothing (log entry 4). -/
def Obligations.BlockBoundaryOpensTheNextBlock : Prop :=
  (∀ s w : State, InPeriod s → s.gen.position + 1 = s.gen.blockSize → endPeriod s = w →
    w.gen = s.gen ∧ w.boundary = s.boundary ∧ w.mgmt.requests = [] ∧
    ∃ t, exec .blockBoundary s = .next t ∧
      t = { w with
        gen := { w.gen with
          blockNumber := (w.gen.blockNumber + 1) % 65536
          blockStamp := (w.gen.sampleCounter + 1) % 2 ^ 32 }
        boundary :=
          { taken := true
            commit := w.engine.commit.isSome
            rate := if w.device.resetState = .ready ∨ w.clock.pendingRate = some w.gen.rate then none
              else w.clock.pendingRate
            config := if w.device.resetState = .ready ∨
                w.uplink.pendingConfig = some ⟨w.gen.blockSize, w.gen.records, w.gen.playback⟩ then none
              else w.uplink.pendingConfig
            reset := decide (w.device.resetState = .ready)
            fallback := w.uplink.fallbackArmed
            report := decide (w.device.resetState ≠ .ready ∧ w.meter.interval ≤ bump 255 w.meter.count) }
        clock := { w.clock with pendingRate := none }
        uplink := { t.uplink with pendingConfig := none }
        meter := { w.meter with count := bump 255 w.meter.count }
        mgmt := { w.mgmt with
          lane := t.mgmt.lane, blocksDue := t.mgmt.blocksDue, gathered := []
          meterSlot := w.mgmt.meterSlot.map fun r => { r with age := bump 255 r.age }
          alarms := t.mgmt.alarms
          counters := { w.mgmt.counters with superseded := t.mgmt.counters.superseded } } } ∧
      (let block : UpBlock :=
        { number := w.gen.blockNumber, stamp := w.gen.blockStamp, blockSize := w.gen.blockSize,
          records := w.gen.records, playback := w.gen.playback, rate := w.gen.rate, mode := w.gen.periodMode,
          uplink := w.uplink.state, played := w.uplink.playing.isSome, nextPlay := w.uplink.nextPlay,
          occupancy := w.uplink.ring.length, rows := w.mgmt.gathered }
      (w.mgmt.lane = .free → w.mgmt.blocksDue = [] → t.mgmt.lane = .block block ∧ t.mgmt.blocksDue = []) ∧
      (w.mgmt.lane ≠ .free → t.mgmt.lane = w.mgmt.lane ∧ t.mgmt.blocksDue = w.mgmt.blocksDue ++ [block]))) ∧
  ∀ s : State, s.powered = true → (s.boundary.taken = true ∨ s.gen.position + 1 < s.gen.blockSize) →
    exec .blockBoundary s = .next s

/-- R113, R116, R117: play time and the loss count at a boundary, by the state at the end of the period before it (log entry
6). DOWN block N is taken out of the ring and played; where it is not held the block period is an underrun, with an
UNDERRUN alarm if a block was played before it. At a boundary that empties the ring (a rate or configuration that differs,
a reset) the held blocks are dropped and counted as flushed and silence is played, neither counted nor reported. N then
advances. A block period without a valid downstream frame adds one to the loss count of an uplink that is UP; the entry to
LOST at 32 is the row UPLINK_LOSS, so the uplink's state stays and the fallback decision that was armed before is the one
due (the model's choice, log entries 7 and 33). -/
def Obligations.PlayTimeTakesTheDueBlock : Prop :=
  ∀ s w : State, InPeriod s → s.gen.position + 1 = s.gen.blockSize → endPeriod s = w →
    let empties := w.device.resetState = .ready ∨ (∃ r, w.clock.pendingRate = some r ∧ r ≠ w.gen.rate) ∨
      ∃ c, w.uplink.pendingConfig = some c ∧ c ≠ ⟨w.gen.blockSize, w.gen.records, w.gen.playback⟩
    let quiet (t : State) := t.mgmt.alarms = w.mgmt.alarms ∧ t.mgmt.counters = w.mgmt.counters
    let posted := postAlarm (.uplink .underrun w.uplink.state ((w.gen.blockNumber + 1) % 65536)
      ((w.gen.sampleCounter + 1) % 2 ^ 32) w.uplink.ring.length (bump32 w.uplink.counters.underruns) none) w
    let next : UplinkRx := { w.uplink with
      nextPlay := (w.uplink.nextPlay + 1) % 65536, heard := false, fallbackArmed := false, pendingConfig := none
      lossCount := if w.uplink.state = .up ∧ w.uplink.heard = false then bump 32 w.uplink.lossCount
        else w.uplink.lossCount }
    ∃ t, exec .blockBoundary s = .next t ∧
      (empties → quiet t ∧ t.uplink = { next with
        playing := none, playedFlag := false, ring := []
        counters := { w.uplink.counters with
          flushed := bumpBy max32 w.uplink.ring.length w.uplink.counters.flushed } }) ∧
      (∀ b, ¬ empties → w.uplink.ring.find? (fun r => decide (r.number = w.uplink.nextPlay)) = some b →
        quiet t ∧ t.uplink = { next with
          playing := some b.samples, playedFlag := true
          ring := w.uplink.ring.filter (fun r => decide (r.number ≠ w.uplink.nextPlay))
          counters := { w.uplink.counters with played := bump32 w.uplink.counters.played } }) ∧
      (¬ empties → (∀ b ∈ w.uplink.ring, b.number ≠ w.uplink.nextPlay) →
        t.uplink = { next with
          playing := none, playedFlag := false
          counters := { w.uplink.counters with underruns := bump32 w.uplink.counters.underruns } } ∧
        (w.uplink.playedFlag = false → quiet t) ∧
        (w.uplink.playedFlag = true →
          t.mgmt.alarms = posted.mgmt.alarms ∧ t.mgmt.counters = posted.mgmt.counters))

/-- R25, R33, R34: COMMIT_APPLY, where a sealed list is due. Every added pair has its new record, at current 0 with the full
length of its ramp; every removed pair has none; every other record stays as it was; the table is in order; the list is
empty and unsealed and the commit is answered OK. Nothing else changes. Where no commit is due nothing changes at all
(log entry 4), and where the list has been emptied since, only what is due. -/
def Obligations.CommitAppliesEveryEdit : Prop :=
  ∀ s : State, s.powered = true →
    (∀ tag, PatchSound s → s.boundary.commit = true → s.engine.commit = some tag →
      ∃ table,
        exec .commitApply s = .next
          { s with
            boundary := { s.boundary with commit := false }
            engine := { s.engine with table := table, edits := [], commit := none }
            mgmt := { s.mgmt with replies := s.mgmt.replies ++ [⟨tag, 0x17#8, ⟨.ok, false, .plain⟩⟩] } } ∧
        TableSorted table ∧
        ∀ src dst : Slot, findRecord table src dst =
          match findEdit s.engine.edits src dst with
          | some (.add e) =>
            some { source := src, destination := dst, setGain := e.setGain, muted := e.muted, ramp := e.ramp,
                   current := 0, remaining := rampLength e.ramp, owner := none, automation := none }
          | some (.remove _ _) => none
          | none => findRecord s.engine.table src dst) ∧
    (s.boundary.commit = false → exec .commitApply s = .next s) ∧
    (s.boundary.commit = true → s.engine.commit = none →
      exec .commitApply s = .next { s with boundary := { s.boundary with commit := false } })

/-- R4, R65, R82, R84, R102, R116: RATE_CHANGE, where a rate that differs is due. P and R are reduced to the new
maximum, every candidate starts again, the clock unit is FREE with a CLOCK_STATE alarm if it was not, the ring is
emptied, and every link that is not OFF enters a fresh ALIGN with no frame period held, posts its LINK_STATE alarm and
ends its command with ABORTED, the links by ascending number (the model's choice, log entry 35); its enable, mask,
recovery mode, pause flag, fault reason and counters are kept. An alarm posted at the open boundary carries the stamp of
the sample period that begins there (log entry 20). Nothing else changes: the word clock outputs, the options, the links
in OFF and the crosspoint engine are as they were. Where no rate is due nothing changes (log entry 4). -/
def Obligations.RateChangeStartsAnew : Prop :=
  ∀ s : State, s.powered = true →
    (∀ r, s.boundary.rate = some r →
      let moving := linkNumbers.filter fun i => decide (s.links[i].state ≠ .off)
      exec .rateChange s = .next { s with
        gen := { s.gen with
          rate := r, records := min s.gen.records (maxChannels r.mult)
          playback := min s.gen.playback (maxChannels r.mult) }
        boundary := { s.boundary with rate := none }
        clock := { s.clock with
          candidates := s.clock.candidates.map fun k =>
            { ref := k.ref, qualification := .unqualified, window := none, interval := none, deviation := none,
              goodCount := none }
          lock := .free, selected := none, lost := none, heldDeviation := none, holdCount := none, holdStart := none
          pullInCount := 0 }
        uplink := { s.uplink with
          ring := [], playing := none, playedFlag := false
          counters := { s.uplink.counters with
            flushed := bumpBy max32 s.uplink.ring.length s.uplink.counters.flushed } }
        links := s.links.map fun l => if l.state = .off then l else freshAlign { l with frames := [] }
        mgmt := afterAlarms
          ((if s.clock.lock = .free then [] else [.clockState .free none r none (stampNow s)]) ++
            moving.map fun i => .linkState i .align false s.links[i].pause 0 none (stampNow s))
          { s.mgmt with replies := s.mgmt.replies ++ moving.flatMap fun i => abortedReplies s.links[i] } }) ∧
    (s.boundary.rate = none → exec .rateChange s = .next s)

/-- R11, R36, R85, R89, R107, R121, R137, R160, R168, R183, R190: RESET_BOUNDARY, where DEVICE_RESET acts. A store write in
flight leaves the store INCOMPLETE; the autostart decision gives mode, table and links; the frame generator keeps its rate
and counts, the transmitter its lane and frame count; everything else takes its power-on state (log entry 24 says what is
kept beside the rules' lists). The clock unit keeps its list, options and outputs, its counters cleared and a pending rate
cancelled; a candidate whose link enters OFF becomes UNQUALIFIED and waiting, and a unit that followed it enters HOLDOVER,
which is counted; otherwise its lock state stays. Where no reset is due nothing changes (log entry 4). -/
def Obligations.ResetRestartsThePart : Prop :=
  ∀ s : State, s.powered = true →
    (s.boundary.reset = true →
      ∃ t, exec .resetBoundary s = .next t ∧
        (let store := match s.device.store with
          | .writing _ _ _ => Store.incomplete
          | other => other
        let patch := match store with
          | .valid p => if p.autostart then some p else none
          | _ => none
        t.device = { mode := if patch.isSome then .operate else .setup, store := store,
                     completed := s.device.completed, resetState := .idle, resets := (s.device.resets + 1) % 65536 } ∧
        t.engine.table = ((patch.map fun p => p.records.map joinRecord).getD []) ∧
        (∀ i : Fin 8, t.links[i] =
          if patch.isSome then { Link.reset with state := .align, enable := true, fresh := true } else Link.reset)) ∧
        t.engine.edits = [] ∧ t.engine.commit = none ∧ t.engine.clipFlags = [] ∧
        (∀ d : Slot, t.engine.outputs[d] = 0 ∧ t.engine.clips[d] = 0) ∧
        t.gen = { s.gen with blockSize := 16, records := maxChannels s.gen.rate.mult,
                             playback := maxChannels s.gen.rate.mult } ∧
        t.uplink = { UplinkRx.reset with nextPlay := s.uplink.nextPlay } ∧
        t.rules = RuleUnit.reset ∧
        t.meter = { MeterUnit.reset with coverStart := s.gen.blockNumber } ∧
        t.mgmt = { Management.reset with
          frameCount := s.mgmt.frameCount, lane := s.mgmt.lane, blocksDue := s.mgmt.blocksDue } ∧
        (∀ i : Fin 4, t.surfaces[i].state = .silent ∧ t.surfaces[i].model = none ∧ t.surfaces[i].updates = [] ∧
          t.surfaces[i].ackPending = false ∧ t.surfaces[i].interval = 2 ∧ t.surfaces[i].stored = 2 ∧
          t.surfaces[i].counters = SurfaceCounters.zero) ∧
        (let autostart : Bool := match s.device.store with
          | .valid p => p.autostart
          | _ => false
        let gone : Reference → Bool := fun ref => match ref with
          | .link i => !autostart &&
            decide (s.links[i].state = .align ∨ s.links[i].state = .active ∨ s.links[i].state = .paused)
          | _ => false
        let following := s.clock.lock = .pullIn ∨ s.clock.lock = .locked
        let kept : ClockUnit := { s.clock with
          pendingRate := none, counters := ClockCounters.zero
          candidates := s.clock.candidates.map fun k =>
            if gone k.ref then { k with qualification := .unqualified, window := none } else k }
        (∀ ref, following → s.clock.selected = some ref → gone ref = true →
          t.clock = { kept with
            lock := .holdover, lost := some ref, selected := none, holdStart := some s.clock.time, runPeriods := 0
            runLong := 0, counters := { ClockCounters.zero with holdovers := 1 } }) ∧
        ((¬ following ∨ ∀ ref, s.clock.selected = some ref → gone ref = false) → t.clock = kept))) ∧
    (s.boundary.reset = false → exec .resetBoundary s = .next s)

/-- R117, R118, R35: UPLINK_LOSS at a loss count of 32 takes an uplink that is UP to LOST with its alarm, and makes a
fallback decision due; FALLBACK_DECISION, where due, installs the stored patch exactly when the uplink is LOST and the
store VALID with fallback-on-loss set. Each changes nothing where it is not due (log entry 4). -/
def Obligations.LossAndFallback : Prop :=
  ∀ s : State, s.powered = true →
    (s.uplink.state = .up → 32 ≤ s.uplink.lossCount →
      exec .uplinkLoss s = .next
        (postAlarm (.uplink .lost .lost s.gen.blockNumber s.gen.blockStamp s.uplink.ring.length
            s.uplink.counters.underruns none)
          { s with uplink := { s.uplink with
              state := .lost, fallbackArmed := true
              counters := { s.uplink.counters with losses := bump32 s.uplink.counters.losses } } })) ∧
    ((s.uplink.state = .lost ∨ s.uplink.lossCount < 32) → exec .uplinkLoss s = .next s) ∧
    (s.boundary.fallback = true →
      (∀ p, s.uplink.state = .lost → s.device.store = .valid p → p.fallback = true →
        exec .fallbackDecision s = .next
          { s with
            boundary := { s.boundary with fallback := false }
            engine := { s.engine with table := p.records.map joinRecord, edits := [], commit := none }
            uplink := { s.uplink with
              fallbackFlag := true
              counters := { s.uplink.counters with installs := bump32 s.uplink.counters.installs } } }) ∧
      ((s.uplink.state = .up ∨ ∀ p, s.device.store = .valid p → p.fallback = false) →
        exec .fallbackDecision s = .next { s with boundary := { s.boundary with fallback := false } })) ∧
    (s.boundary.fallback = false → exec .fallbackDecision s = .next s)

/-! ### Downstream frames -/

/-- R110 to R112, R117, R119, R169: DOWN_BLOCK, REQUEST and BAD_FRAME. A valid frame restarts the loss count and returns
an uplink that is LOST, with a RETURN alarm that carries the fallback flag, which is then cleared. A DOWN block that is
not well formed, by the B and P in force, is then a bad frame; a well-formed one is classified by its offset from the
next-play number and stored, in the window and not held, with the upper 24 bits of each container as its samples. A
request is counted and claims one of the 16 places, or is dropped and counted where none is free: a place is in use for
each request that waits, for each taken and not yet answered (a sealed commit, a converter command of each link, a store
write), for each reply in the queue and for one being sent. -/
def Obligations.DownstreamFramesAreTaken : Prop :=
  (∀ s : State, placesInUse s =
    s.mgmt.requests.length + (if s.engine.commit = none then 0 else 1) +
      (s.links.toList.filter fun l => decide (l.relay ≠ .idle)).length +
      (match s.device.store with
      | .writing _ _ _ => 1
      | _ => 0) +
      s.mgmt.replies.length +
      (match s.mgmt.lane with
      | .message (.reply _) => 1
      | _ => 0)) ∧
  (∀ (r : RequestFrame) (s : State), InPeriod s →
     let h := hearFrame s
     (s.uplink.state = .up →
       h = { s with uplink := { s.uplink with lossCount := 0, heard := true } }) ∧
     (s.uplink.state = .lost →
       h =
         { (postAlarm (.uplink .returned .up s.gen.blockNumber s.gen.blockStamp s.uplink.ring.length
               s.uplink.counters.underruns (some s.uplink.fallbackFlag)) s) with
           uplink := { s.uplink with state := .up, lossCount := 0, heard := true, fallbackFlag := false } }) ∧
     (placesInUse h < 16 →
       exec (.request r) s = .next { h with mgmt := { h.mgmt with
         requests := h.mgmt.requests ++ [r]
         counters := { h.mgmt.counters with received := bump32 h.mgmt.counters.received } } }) ∧
     (16 ≤ placesInUse h →
       exec (.request r) s = .next { h with mgmt := { h.mgmt with
         counters := { h.mgmt.counters with
           received := bump32 h.mgmt.counters.received, dropped := bump32 h.mgmt.counters.dropped } } }) ∧
     exec .badFrame s = .next { s with uplink := { s.uplink with
       counters := { s.uplink.counters with bad := bump32 s.uplink.counters.bad } } }) ∧
  ∀ (b : DownBlock) (s : State), InPeriod s → b.number < 65536 →
    let h := hearFrame s
    let wellFormed := b.bodyLength = 16 + 4 * (s.gen.playback * s.gen.blockSize) ∧
      b.containers.length = s.gen.playback * s.gen.blockSize ∧ b.blockSize = s.gen.blockSize ∧
      b.channels = s.gen.playback
    let d := ((b.number : Int) - s.uplink.nextPlay) % 65536
    let count (f : UplinkCounters → UplinkCounters) : Host.Outcome State Fault Refusal :=
      .next { h with uplink := { h.uplink with counters := f h.uplink.counters } }
    (¬ wellFormed → exec (.downBlock b) s = count fun c => { c with bad := bump32 c.bad }) ∧
    (wellFormed → d < 4 → (∀ r ∈ s.uplink.ring, r.number ≠ b.number) →
      exec (.downBlock b) s = .next
        { h with uplink := { h.uplink with
          ring := s.uplink.ring ++ [⟨b.number, b.containers.map fun c => c.toInt / 256⟩]
          counters := { h.uplink.counters with stored := bump32 h.uplink.counters.stored } } }) ∧
    (wellFormed → d < 4 → (∃ r ∈ s.uplink.ring, r.number = b.number) →
      exec (.downBlock b) s = count fun c => { c with duplicates := bump32 c.duplicates }) ∧
    (wellFormed → 4 ≤ d → d < 32768 → exec (.downBlock b) s = count fun c => { c with early := bump32 c.early }) ∧
    (wellFormed → 32768 ≤ d → exec (.downBlock b) s = count fun c => { c with late := bump32 c.late })

/-! ### The patch table's requests -/

/-- R26, R27, R28, R29, R32: XP_ADD, XP_REMOVE and PATCH_DISCARD, with fields in range (R18). A sealed list refuses each
with BUSY. An ADD of a pair in neither table nor list is appended, or FULL at 64 edits; a pair in the effective view
EXISTS; a pair whose removal is pending is revived at once, with HELD where it is held. A REMOVE of a pending ADD
deletes it, of a record without an edit is appended, or FULL; of anything else NOT_FOUND. A discard empties the list. -/
def Obligations.ChangeListRequests : Prop :=
  (∀ (tag : Byte) (b : XpAddBody) (rest : List RequestFrame) (s : State), Takes (.xpAdd tag (some b)) rest s →
    (528 ≤ b.source ∨ 528 ≤ b.destination ∨ b.gain < -8388608 ∨ 8388607 < b.gain ∨ 2 ≤ b.muted ∨ 8 ≤ b.ramp) →
    exec (.xpAdd tag (some b)) s = .next (replied rest tag 0x10#8 ⟨.range, false, .plain⟩ s)) ∧
  (∀ (tag : Byte) (e : PatchEntry) (rest : List RequestFrame) (s : State), InRange e.setGain →
    let c : Instr := .xpAdd tag (some ⟨e.source.val, e.destination.val, e.setGain, e.muted.toNat, e.ramp.val⟩)
    let record := findRecord s.engine.table e.source e.destination
    let edit := findEdit s.engine.edits e.source e.destination
    Takes c rest s →
      (s.engine.commit ≠ none → exec c s = .next (replied rest tag 0x10#8 ⟨.busy, false, .plain⟩ s)) ∧
      (s.engine.commit = none → record = none → edit = none → s.engine.edits.length < 64 →
        exec c s = .next (replied rest tag 0x10#8 ⟨.ok, false, .plain⟩
          { s with engine := { s.engine with edits := s.engine.edits ++ [.add e] } })) ∧
      (s.engine.commit = none → record = none → edit = none → 64 ≤ s.engine.edits.length →
        exec c s = .next (replied rest tag 0x10#8 ⟨.full, false, .plain⟩ s)) ∧
      (s.engine.commit = none → (record.isSome ∧ edit = none ∨ record = none ∧ ∃ a, edit = some (.add a)) →
        exec c s = .next (replied rest tag 0x10#8 ⟨.exists_, false, .plain⟩ s)) ∧
      (∀ r d, s.engine.commit = none → record = some r → edit = some d →
        exec c s = .next (replied rest tag 0x10#8 ⟨.ok, r.owner.isSome, .plain⟩
          { s with engine := { s.engine with
            edits := s.engine.edits.filter fun x => !x.is e.source e.destination
            table := updateRecord e.source e.destination (fun q => match q.owner with
              | none => restartedFrom q e.ramp { q with ramp := e.ramp, muted := e.muted, setGain := e.setGain }
              | some _ => restartedFrom q e.ramp
                  { q with ramp := e.ramp, muted := e.muted, automation := some (e.setGain, e.ramp) })
              s.engine.table } }))) ∧
  (∀ (tag : Byte) (b : PairBody) (rest : List RequestFrame) (s : State), Takes (.xpRemove tag (some b)) rest s →
    (528 ≤ b.source ∨ 528 ≤ b.destination) →
    exec (.xpRemove tag (some b)) s = .next (replied rest tag 0x11#8 ⟨.range, false, .plain⟩ s)) ∧
  (∀ (tag : Byte) (src dst : Slot) (rest : List RequestFrame) (s : State),
    let c : Instr := .xpRemove tag (some ⟨src.val, dst.val⟩)
    let record := findRecord s.engine.table src dst
    let edit := findEdit s.engine.edits src dst
    Takes c rest s →
      (s.engine.commit ≠ none → exec c s = .next (replied rest tag 0x11#8 ⟨.busy, false, .plain⟩ s)) ∧
      (∀ a, s.engine.commit = none → record = none → edit = some (.add a) →
        exec c s = .next (replied rest tag 0x11#8 ⟨.ok, false, .plain⟩
          { s with engine := { s.engine with edits := s.engine.edits.filter fun x => !x.is src dst } })) ∧
      (s.engine.commit = none → record.isSome → edit = none → s.engine.edits.length < 64 →
        exec c s = .next (replied rest tag 0x11#8 ⟨.ok, false, .plain⟩
          { s with engine := { s.engine with edits := s.engine.edits ++ [.remove src dst] } })) ∧
      (s.engine.commit = none → record.isSome → edit = none → 64 ≤ s.engine.edits.length →
        exec c s = .next (replied rest tag 0x11#8 ⟨.full, false, .plain⟩ s)) ∧
      (s.engine.commit = none → (record.isSome ∧ edit.isSome ∨ record = none ∧ edit = none) →
        exec c s = .next (replied rest tag 0x11#8 ⟨.notFound, false, .plain⟩ s))) ∧
  (∀ (tag : Byte) (rest : List RequestFrame) (s : State), Takes (.patchDiscard tag (some ())) rest s →
    (s.engine.commit ≠ none →
      exec (.patchDiscard tag (some ())) s = .next (replied rest tag 0x18#8 ⟨.busy, false, .plain⟩ s)) ∧
    (s.engine.commit = none →
      exec (.patchDiscard tag (some ())) s = .next (replied rest tag 0x18#8 ⟨.ok, false, .plain⟩
        { s with engine := { s.engine with edits := [] } })))

/-- R18 to R22, R32: XP_GAIN, XP_MUTE and XP_RAMP with every field in range, on a record, on a pending ADD and on neither. A
gain under a hold goes to the automation gain, with HELD; a gain or mute that changes the effective target restarts the
ramp, a gain under the request's code and a mute under the record's own; a ramp code restarts nothing. A field out of
range is answered RANGE. -/
def Obligations.ImmediateRequests : Prop :=
  (∀ (tag : Byte) (src dst : Slot) (gain : Int) (code : RampCode), InRange gain →
    WritesPair (.xpGain tag (some ⟨src.val, dst.val, gain, code.val⟩)) tag 0x12#8 src dst
      (fun r => match r.owner with
        | none => restartedFrom r code { r with setGain := gain }
        | some _ => { r with automation := some (gain, code) })
      (fun e => { e with setGain := gain }) true) ∧
  (∀ (tag : Byte) (src dst : Slot) (on : Bool),
    WritesPair (.xpMute tag (some ⟨src.val, dst.val, on.toNat⟩)) tag 0x13#8 src dst
      (fun r => restartedFrom r r.ramp { r with muted := on }) (fun e => { e with muted := on }) false) ∧
  (∀ (tag : Byte) (src dst : Slot) (code : RampCode),
    WritesPair (.xpRamp tag (some ⟨src.val, dst.val, code.val⟩)) tag 0x14#8 src dst
      (fun r => { r with ramp := code }) (fun e => { e with ramp := code }) false) ∧
  (∀ (tag : Byte) (b : XpGainBody) (rest : List RequestFrame) (s : State), Takes (.xpGain tag (some b)) rest s →
    (528 ≤ b.source ∨ 528 ≤ b.destination ∨ b.gain < -8388608 ∨ 8388607 < b.gain ∨ 8 ≤ b.ramp) →
    exec (.xpGain tag (some b)) s = .next (replied rest tag 0x12#8 ⟨.range, false, .plain⟩ s)) ∧
  (∀ (tag : Byte) (b : XpMuteBody) (rest : List RequestFrame) (s : State), Takes (.xpMute tag (some b)) rest s →
    (528 ≤ b.source ∨ 528 ≤ b.destination ∨ 2 ≤ b.on) →
    exec (.xpMute tag (some b)) s = .next (replied rest tag 0x13#8 ⟨.range, false, .plain⟩ s)) ∧
  (∀ (tag : Byte) (b : XpRampBody) (rest : List RequestFrame) (s : State), Takes (.xpRamp tag (some b)) rest s →
    (528 ≤ b.source ∨ 528 ≤ b.destination ∨ 8 ≤ b.ramp) →
    exec (.xpRamp tag (some b)) s = .next (replied rest tag 0x14#8 ⟨.range, false, .plain⟩ s))

/-- R2, R6, R23, R24: XP_READ and PATCH_LIST report and change nothing. XP_READ gives the record's entry with its
liveness in the period in progress, by the mode at that period's start (log entry 25), and whether a removal is pending,
the pending ADD's, or NOT_FOUND; PATCH_LIST gives the records from the first index on, at most count of them, in table
order. -/
def Obligations.PatchReads : Prop :=
  (∀ (tag : Byte) (src dst : Slot) (rest : List RequestFrame) (s : State),
    let c : Instr := .xpRead tag (some ⟨src.val, dst.val⟩)
    Takes c rest s →
      (∀ r, findRecord s.engine.table src dst = some r →
        exec c s = .next (replied rest tag 0x15#8 ⟨.ok, false, .xpRead
          { marker := if (findEdit s.engine.edits src dst).isSome then .pendingRemove else .plain
            setGain := r.setGain, muted := r.muted, ramp := r.ramp, current := some r.current
            remaining := some r.remaining, target := if r.muted then 0 else r.setGain
            live := some (decide (s.gen.periodMode = .operate) && presentSource s.gen r.source &&
              presentDestination s.gen r.destination)
            owner := r.owner, automation := r.automation, listSealed := s.engine.commit.isSome }⟩ s)) ∧
      (∀ e, findRecord s.engine.table src dst = none → findEdit s.engine.edits src dst = some (.add e) →
        exec c s = .next (replied rest tag 0x15#8 ⟨.ok, false, .xpRead
          { marker := .pendingAdd, setGain := e.setGain, muted := e.muted, ramp := e.ramp, current := none
            remaining := none, target := if e.muted then 0 else e.setGain, live := none, owner := none
            automation := none, listSealed := s.engine.commit.isSome }⟩ s)) ∧
      (findRecord s.engine.table src dst = none → findEdit s.engine.edits src dst = none →
        exec c s = .next (replied rest tag 0x15#8 ⟨.notFound, false, .plain⟩ s))) ∧
  (∀ (tag : Byte) (b : PairBody) (rest : List RequestFrame) (s : State), Takes (.xpRead tag (some b)) rest s →
    (528 ≤ b.source ∨ 528 ≤ b.destination) →
    exec (.xpRead tag (some b)) s = .next (replied rest tag 0x15#8 ⟨.range, false, .plain⟩ s)) ∧
  (∀ (tag : Byte) (b : PatchListBody) (rest : List RequestFrame) (s : State), Takes (.patchList tag (some b)) rest s →
    (b.first ≤ 1023 → 1 ≤ b.count → b.count ≤ 8 →
      ∃ records, exec (.patchList tag (some b)) s = .next (replied rest tag 0x16#8
          ⟨.ok, false, .patchList records s.engine.table.length s.engine.edits.length s.engine.commit.isSome
            records.length⟩ s) ∧
        records.length = min b.count (s.engine.table.length - b.first) ∧
        ∀ n < records.length, ∃ r, s.engine.table[b.first + n]? = some r ∧
          records[n]? = some
            { source := r.source, destination := r.destination, setGain := r.setGain, muted := r.muted, ramp := r.ramp
              current := r.current, remaining := r.remaining, owner := r.owner, automation := r.automation
              marker := if (findEdit s.engine.edits r.source r.destination).isSome then .pendingRemove else .plain }) ∧
    ((1023 < b.first ∨ b.count = 0 ∨ 8 < b.count) →
      exec (.patchList tag (some b)) s = .next (replied rest tag 0x16#8 ⟨.range, false, .plain⟩ s)))

/-- R30, R31: PATCH_COMMIT. A sealed list is BUSY; an empty one OK at once; one that passes the walk at every position is
sealed under the request's tag, with no reply yet; one that fails is CONFLICT at the first failing position, naming its
pair and TOTAL before DESTINATION, and stays as it was. -/
def Obligations.CommitSealsAValidList : Prop :=
  ∀ (tag : Byte) (rest : List RequestFrame) (s : State), Takes (.patchCommit tag (some ())) rest s →
    let c : Instr := .patchCommit tag (some ())
    let held := s.engine.table.map (·.destination)
    (s.engine.commit ≠ none → exec c s = .next (replied rest tag 0x17#8 ⟨.busy, false, .plain⟩ s)) ∧
    (s.engine.commit = none → s.engine.edits = [] →
      exec c s = .next (replied rest tag 0x17#8 ⟨.ok, false, .plain⟩ s)) ∧
    (s.engine.commit = none → s.engine.edits ≠ [] → (∀ n, PassesAt held s.engine.edits n) →
      exec c s = .next (taken rest { s with engine := { s.engine with commit := some tag } })) ∧
    (∀ n d, s.engine.commit = none → s.engine.edits[n]? = some d → (∀ k < n, PassesAt held s.engine.edits k) →
      ¬ PassesAt held s.engine.edits n →
      exec c s = .next (replied rest tag 0x17#8
        ⟨.conflict, false, .conflict n d.source d.destination
          (if 1024 < (afterEdits held (s.engine.edits.take (n + 1))).length then .total else .destination)⟩ s))

/-! ### The rule unit's and the surfaces' requests -/

/-- R139, R140, R156: RULE_WRITE, RULE_BLOCKS and LAW_WRITE. In OPERATE each is WRONG_MODE, whatever its fields (the
order of the refusals is read from the rules, log entry 29). In SETUP a rule with its fields in range is replaced whole,
its last passed value absent; a block in range and clear of every other link's block is stored; eight entries in range
replace eight of the law. A field out of range is RANGE. -/
def Obligations.RuleUnitWrites : Prop :=
  (∀ (tag : Byte) (b : RuleWriteBody) (rest : List RequestFrame) (s : State), Takes (.ruleWrite tag (some b)) rest s →
    let inRange (a : RawAction) : Prop := match a with
      | .forward label => label ≤ 65535
      | .driveGain src dst ramp => src < 528 ∧ dst < 528 ∧ ramp < 8
      | .nudgeGain src dst step => src < 528 ∧ dst < 528 ∧ 1 ≤ step ∧ step ≤ 65535
      | .toggleMute src dst => src < 528 ∧ dst < 528
      | .echo link address => link < 4 ∧ address < 4096
      | .unassigned _ => False
    let received (a : Action) : RawAction := match a with
      | .forward label => .forward label
      | .driveGain src dst ramp => .driveGain src.val dst.val ramp.val
      | .nudgeGain src dst step => .nudgeGain src.val dst.val step
      | .toggleMute src dst => .toggleMute src.val dst.val
      | .echo link address => .echo link.val address
    (s.device.mode = .operate →
      exec (.ruleWrite tag (some b)) s = .next (replied rest tag 0x20#8 ⟨.wrongMode, false, .plain⟩ s)) ∧
    (s.device.mode = .setup →
      (512 ≤ b.rule ∨ 2 ≤ b.valid ∨ 32 ≤ b.kinds ∨ b.kinds % 2 = 1 ∨ 4096 ≤ b.address ∨ 4096 ≤ b.mask ∨
        256 ≤ b.deadband ∨ 4 < b.actions.length ∨ (∃ a ∈ b.actions, ¬ inRange a)) →
      exec (.ruleWrite tag (some b)) s = .next (replied rest tag 0x20#8 ⟨.range, false, .plain⟩ s)) ∧
    (∀ (n : Fin 512) (valid : Bool) (actions : List Action), s.device.mode = .setup → b.rule = n.val →
      b.valid = valid.toNat → b.kinds < 32 → b.kinds % 2 = 0 → b.address < 4096 → b.mask < 4096 → b.deadband < 256 →
      actions.length ≤ 4 → b.actions = actions.map received → (∀ a ∈ b.actions, inRange a) →
      ∃ kinds,
        let rule : Rule :=
          { valid := valid, kinds := kinds, address := b.address, mask := b.mask, deadband := b.deadband
            lastPassed := none, actions := actions }
        exec (.ruleWrite tag (some b)) s = .next (replied rest tag 0x20#8 ⟨.ok, false, .plain⟩
          { s with rules := { s.rules with rules := s.rules.rules.set n rule } }) ∧
        (MessageKind.position ∈ kinds ↔ b.kinds.testBit 1) ∧ (MessageKind.touch ∈ kinds ↔ b.kinds.testBit 2) ∧
        (MessageKind.press ∈ kinds ↔ b.kinds.testBit 3) ∧ (MessageKind.turn ∈ kinds ↔ b.kinds.testBit 4))) ∧
  (∀ (tag : Byte) (b : RuleBlocksBody) (rest : List RequestFrame) (s : State), Takes (.ruleBlocks tag (some b)) rest s →
    (s.device.mode = .operate →
      exec (.ruleBlocks tag (some b)) s = .next (replied rest tag 0x22#8 ⟨.wrongMode, false, .plain⟩ s)) ∧
    (∀ i : Fin 4, s.device.mode = .setup → b.link = i.val → b.start ≤ 511 → b.start + b.count ≤ 512 →
      (∀ j : Fin 4, j ≠ i → ∀ n, b.start ≤ n → n < b.start + b.count →
        ¬ (s.rules.blocks[j].start ≤ n ∧ n < s.rules.blocks[j].start + s.rules.blocks[j].count)) →
      exec (.ruleBlocks tag (some b)) s = .next (replied rest tag 0x22#8 ⟨.ok, false, .plain⟩
        { s with rules := { s.rules with blocks := s.rules.blocks.set i ⟨b.start, b.count⟩ } })) ∧
    (s.device.mode = .setup → (4 ≤ b.link ∨ 511 < b.start ∨ 512 < b.count ∨ 512 < b.start + b.count) →
      exec (.ruleBlocks tag (some b)) s = .next (replied rest tag 0x22#8 ⟨.range, false, .plain⟩ s)) ∧
    (∀ (i j : Fin 4) (n : Nat), s.device.mode = .setup → b.link = i.val → j ≠ i → b.start ≤ n →
      n < b.start + b.count → s.rules.blocks[j].start ≤ n → n < s.rules.blocks[j].start + s.rules.blocks[j].count →
      exec (.ruleBlocks tag (some b)) s = .next (replied rest tag 0x22#8 ⟨.range, false, .plain⟩ s))) ∧
  (∀ (tag : Byte) (b : LawWriteBody) (rest : List RequestFrame) (s : State), Takes (.lawWrite tag (some b)) rest s →
    (s.device.mode = .operate →
      exec (.lawWrite tag (some b)) s = .next (replied rest tag 0x23#8 ⟨.wrongMode, false, .plain⟩ s)) ∧
    (s.device.mode = .setup → b.start ≤ 121 → b.entries.length = 8 → (∀ x ∈ b.entries, InRange x) →
      ∃ law : Vector Int 129,
        exec (.lawWrite tag (some b)) s = .next (replied rest tag 0x23#8 ⟨.ok, false, .plain⟩
          { s with rules := { s.rules with law := law } }) ∧
        ∀ k (h : k < 129), (b.start ≤ k → k < b.start + 8 → b.entries[k - b.start]? = some law[k]) ∧
          (k < b.start ∨ b.start + 8 ≤ k → law[k] = s.rules.law[k])) ∧
    (s.device.mode = .setup → (121 < b.start ∨ ∃ x ∈ b.entries, ¬ InRange x) →
      exec (.lawWrite tag (some b)) s = .next (replied rest tag 0x23#8 ⟨.range, false, .plain⟩ s)))

/-- R141, R157: RULE_READ and LAW_READ, in either mode: every field of the rule with the link whose block holds it, and
eight entries of the law; a number out of range is RANGE. Neither changes anything. -/
def Obligations.RuleUnitReads : Prop :=
  (∀ (tag : Byte) (n : Nat) (rest : List RequestFrame) (s : State), Takes (.ruleRead tag (some n)) rest s →
    (∀ h : n < 512, ∃ owner,
      exec (.ruleRead tag (some n)) s =
        .next (replied rest tag 0x21#8 ⟨.ok, false, .rule s.rules.rules[n] owner⟩ s) ∧
      (∀ i, owner = some i →
        s.rules.blocks[i].start ≤ n ∧ n < s.rules.blocks[i].start + s.rules.blocks[i].count) ∧
      (owner = none → ∀ i : Fin 4,
        ¬ (s.rules.blocks[i].start ≤ n ∧ n < s.rules.blocks[i].start + s.rules.blocks[i].count))) ∧
    (512 ≤ n → exec (.ruleRead tag (some n)) s = .next (replied rest tag 0x21#8 ⟨.range, false, .plain⟩ s))) ∧
  (∀ (tag : Byte) (start : Nat) (rest : List RequestFrame) (s : State), Takes (.lawRead tag (some start)) rest s →
    (start ≤ 121 → ∃ entries,
      exec (.lawRead tag (some start)) s = .next (replied rest tag 0x24#8 ⟨.ok, false, .law entries⟩ s) ∧
      entries.length = 8 ∧ ∀ j < 8, entries[j]? = s.rules.law[start + j]?) ∧
    (121 < start → exec (.lawRead tag (some start)) s = .next (replied rest tag 0x24#8 ⟨.range, false, .plain⟩ s)))

/-- R129, R131 to R134: SURFACE_SEND, SURFACE_CONFIG and SURFACE_STATUS. An update for a link that is ONLINE replaces the
value of an entry of its kind and address in place, or is appended, or at 32 other keys is FULL and counted; a link that
is not ONLINE is LINK_DOWN. A send interval is stored for the next expiry. A field out of range is RANGE, for a link that
is not ONLINE too (the order of the refusals is read from R132, log entry 29). The status reports the link and changes
nothing: its time is in whole ms, a fraction dropped (log entry 8), and a class without an entry has no oldest age (log
entry 34). -/
def Obligations.SurfaceRequests : Prop :=
  (∀ (tag : Byte) (i : Fin 4) (kind : UpdateKind) (address value : Nat) (rest : List RequestFrame) (s : State),
    address < 4096 →
    value ≤ (match kind with
      | .setPosition => 1023
      | .lamp => 3
      | .meter => 16) →
    let code := match kind with
      | .setPosition => 8
      | .lamp => 9
      | .meter => 10
    let c : Instr := .surfaceSend tag (some ⟨i.val, code, address, value⟩)
    let f := s.surfaces[i]
    Takes c rest s →
      (f.state ≠ .online → exec c s = .next (replied rest tag 0x30#8 ⟨.linkDown, false, .plain⟩ s)) ∧
      (f.state = .online → (∃ u ∈ f.updates, u.kind = kind ∧ u.address = address) →
        exec c s = .next (replied rest tag 0x30#8 ⟨.ok, false, .plain⟩
          (let set := f.updates.map fun u => if u.kind = kind ∧ u.address = address then { u with value := value } else u
          { s with surfaces := s.surfaces.set i { f with updates := set } }))) ∧
      (f.state = .online → (∀ u ∈ f.updates, ¬ (u.kind = kind ∧ u.address = address)) → f.updates.length < 32 →
        exec c s = .next (replied rest tag 0x30#8 ⟨.ok, false, .plain⟩
          { s with surfaces := s.surfaces.set i { f with updates := f.updates ++ [⟨kind, address, value, 0⟩] } })) ∧
      (f.state = .online → (∀ u ∈ f.updates, ¬ (u.kind = kind ∧ u.address = address)) → 32 ≤ f.updates.length →
        exec c s = .next (replied rest tag 0x30#8 ⟨.full, false, .plain⟩
          (let counters := { f.counters with overflow := bump32 f.counters.overflow }
          { s with surfaces := s.surfaces.set i { f with counters := counters } })))) ∧
  (∀ (tag : Byte) (b : SurfaceSendBody) (rest : List RequestFrame) (s : State), Takes (.surfaceSend tag (some b)) rest s →
    (4 ≤ b.link ∨ b.kind < 8 ∨ 10 < b.kind ∨ 4096 ≤ b.address ∨ b.kind = 8 ∧ 1023 < b.value ∨
      b.kind = 9 ∧ 3 < b.value ∨ b.kind = 10 ∧ 16 < b.value) →
    exec (.surfaceSend tag (some b)) s = .next (replied rest tag 0x30#8 ⟨.range, false, .plain⟩ s)) ∧
  (∀ (tag : Byte) (b : SurfaceConfigBody) (rest : List RequestFrame) (s : State),
    Takes (.surfaceConfig tag (some b)) rest s →
    (∀ i : Fin 4, b.link = i.val → 1 ≤ b.interval → b.interval ≤ 64 →
      exec (.surfaceConfig tag (some b)) s = .next (replied rest tag 0x32#8 ⟨.ok, false, .plain⟩
        { s with surfaces := s.surfaces.set i { s.surfaces[i] with stored := b.interval } })) ∧
    ((4 ≤ b.link ∨ b.interval = 0 ∨ 64 < b.interval) →
      exec (.surfaceConfig tag (some b)) s = .next (replied rest tag 0x32#8 ⟨.range, false, .plain⟩ s))) ∧
  (∀ (tag : Byte) (n : Nat) (rest : List RequestFrame) (s : State), Takes (.surfaceStatus tag (some n)) rest s →
    (∀ i : Fin 4, n = i.val → ∃ v : SurfaceView,
      exec (.surfaceStatus tag (some n)) s = .next (replied rest tag 0x31#8 ⟨.ok, false, .surfaceStatus v⟩ s) ∧
      v.state = s.surfaces[i].state ∧ v.model = s.surfaces[i].model ∧
      v.since = (if s.surfaces[i].state = .online then some ((s.clock.time - s.surfaces[i].silenceStart) / timePerMs)
        else none) ∧
      v.interval = s.surfaces[i].interval ∧
      v.stored = (if s.surfaces[i].stored = s.surfaces[i].interval then none else some s.surfaces[i].stored) ∧
      v.ackPending = s.surfaces[i].ackPending ∧ v.entries = s.surfaces[i].updates.length ∧
      (let inClass (kind : UpdateKind) (w : ClassView) : Prop :=
        let set := s.surfaces[i].updates.filter fun u => decide (u.kind = kind)
        w.entries = set.length ∧ w.oldest = set.head?.map (·.age)
      inClass .setPosition v.positions ∧ inClass .lamp v.lamps ∧ inClass .meter v.meters) ∧
      v.holds = (s.engine.table.filter fun r => decide (r.owner = some i)).length ∧ v.block = s.rules.blocks[i]) ∧
    (4 ≤ n → exec (.surfaceStatus tag (some n)) s = .next (replied rest tag 0x31#8 ⟨.range, false, .plain⟩ s)))

/-! ### The converter links' requests -/

/-- R62, R64, R65, R75, R82, R89, R97, R98: LINK_CONFIG with fields in range. The mask, recovery mode and enable are
stored (PARK in FAULT clears the enable again); the state goes where R75's table says. A link that goes to ALIGN starts
it anew, from FAULT with no frame period held; one that goes to OFF drops its frame periods, so that it presents 0 from
the next sample period (log entry 13), with its error counter 0 and DEGRADED clear. A move ends a command in flight with
ABORTED, queued before the request's own reply, and posts the link's alarm; the reply carries the state after it. A link
that leaves ALIGN, ACTIVE or PAUSED for OFF takes its candidate to UNQUALIFIED, and a clock unit that follows it to
HOLDOVER, with the CLOCK_STATE alarm behind the link's (both orders are the model's choice, log entry 35). Nothing else
changes. A field out of range is RANGE. -/
def Obligations.LinkConfigActsByState : Prop :=
  (∀ (tag : Byte) (i : Fin 8) (enable : Bool) (mask : BitVec 32) (recovery : Recovery) (rest : List RequestFrame)
    (s : State),
    let code := match recovery with
      | .auto => 0
      | .manual => 1
      | .park => 2
    let c : Instr := .linkConfig tag (some ⟨i.val, enable.toNat, mask, code⟩)
    let l := s.links[i]
    let stored : Link := { l with enable := enable, mask := mask, recovery := recovery }
    let after := configuredState enable recovery l
    let left : Link :=
      if after = l.state then stored
      else if after = .align then freshAlign stored
      else { stored with
        state := .off, enable := false, errors := 0, degraded := false, fresh := false, relay := .idle, frames := [] }
    let leaves := after = .off ∧ (l.state = .align ∨ l.state = .active ∨ l.state = .paused)
    let following := (s.clock.lock = .pullIn ∨ s.clock.lock = .locked) ∧ s.clock.selected = some (.link i)
    let stamp := s.gen.sampleCounter
    Takes c rest s →
      left.state = after ∧
      exec c s = .next { s with
        links := s.links.set i left
        clock := if leaves then
            if following then heldOver (.link i) s.clock
            else { s.clock with candidates := withoutReference (.link i) s.clock }
          else s.clock
        mgmt := afterAlarms
          (if after = l.state then []
          else [.linkState i after false l.pause 0 none stamp] ++
            if leaves ∧ following then [.clockState .holdover (some (.link i)) s.gen.rate s.clock.heldDeviation stamp]
            else [])
          { s.mgmt with
            requests := rest
            replies := s.mgmt.replies ++ (if after = l.state then [] else abortedReplies l) ++
              [⟨tag, 0x40#8, ⟨.ok, false, .linkState after⟩⟩] } }) ∧
  (∀ (tag : Byte) (b : LinkConfigBody) (rest : List RequestFrame) (s : State), Takes (.linkConfig tag (some b)) rest s →
    (8 ≤ b.link ∨ 2 ≤ b.enable ∨ 3 ≤ b.recovery) →
    exec (.linkConfig tag (some b)) s = .next (replied rest tag 0x40#8 ⟨.range, false, .plain⟩ s))

/-- R65, R66, R67, R72, R76, R77: LINK_RESTART, LINK_PAUSE and LINK_RESUME. A restart puts a link that is not OFF into a
fresh ALIGN and ends its command, whose ABORTED reply is queued before the request's own (the model's choice, log entry
35), its unjudged frame periods going on in the new ALIGN (log entries 12 and 13); the clock unit stays as it was (read
from R89 against a line of 95_what_each_step_holds.md, log entry 28); a link in OFF is LINK_DOWN. The pause flag is set
or cleared in every state, and an aligned link follows it: PAUSED while the mode is SETUP or the flag is set, ACTIVE
otherwise. A link that moves presents, from the next sample period, 0 in PAUSED and in ACTIVE the values that
concealment gives: those chosen at the judgement of the frame period that falls due (log entry 13). Nothing else of the
link changes. A link number out of range is RANGE. -/
def Obligations.RestartPauseResume : Prop :=
  (∀ (tag : Byte) (n : Nat) (rest : List RequestFrame) (s : State), Takes (.linkRestart tag (some n)) rest s →
    (8 ≤ n → exec (.linkRestart tag (some n)) s = .next (replied rest tag 0x41#8 ⟨.range, false, .plain⟩ s)) ∧
    (∀ i : Fin 8, n = i.val → s.links[i].state = .off →
      exec (.linkRestart tag (some n)) s = .next (replied rest tag 0x41#8 ⟨.linkDown, false, .plain⟩ s)) ∧
    (∀ i : Fin 8, n = i.val → s.links[i].state ≠ .off →
      exec (.linkRestart tag (some n)) s = .next { s with
        links := s.links.set i (freshAlign s.links[i])
        mgmt := afterAlarms [.linkState i .align false s.links[i].pause 0 none s.gen.sampleCounter]
          { s.mgmt with
            requests := rest
            replies :=
              s.mgmt.replies ++ abortedReplies s.links[i] ++ [⟨tag, 0x41#8, ⟨.ok, false, .plain⟩⟩] } })) ∧
  (∀ (tag : Byte) (pause : Bool) (n : Nat) (rest : List RequestFrame) (s : State),
    let c : Instr := if pause then .linkPause tag (some n) else .linkResume tag (some n)
    let kind : Byte := if pause then 0x42#8 else 0x43#8
    Takes c rest s →
      (8 ≤ n → exec c s = .next (replied rest tag kind ⟨.range, false, .plain⟩ s)) ∧
      (∀ i : Fin 8, n = i.val →
        let l := s.links[i]
        let after : LinkState :=
          if l.state = .active ∨ l.state = .paused then
            if s.device.mode = .setup ∨ pause = true then .paused else .active
          else l.state
        exec c s = .next { s with
          links := s.links.set i (movedTo after { l with pause := pause })
          mgmt := afterAlarms
            (if after = l.state then []
            else [.linkState i after l.degraded pause l.errors none s.gen.sampleCounter])
            { s.mgmt with
              requests := rest, replies := s.mgmt.replies ++ [⟨tag, kind, ⟨.ok, false, .plain⟩⟩] } }))

/-- R78, R79, R80: LINK_STATUS reports the link and changes nothing; CONVERTER_COMMAND on an aligned link with an idle relay
is taken, its marker and its bytes to go out one to a frame, and answered when it ends; a busy relay is BUSY, a link that
is not aligned LINK_DOWN, and a link number or byte count out of range RANGE. -/
def Obligations.LinkStatusAndCommands : Prop :=
  (∀ (tag : Byte) (n : Nat) (rest : List RequestFrame) (s : State), Takes (.linkStatus tag (some n)) rest s →
    (8 ≤ n → exec (.linkStatus tag (some n)) s = .next (replied rest tag 0x44#8 ⟨.range, false, .plain⟩ s)) ∧
    (∀ i : Fin 8, n = i.val →
      let l := s.links[i]
      exec (.linkStatus tag (some n)) s = .next (replied rest tag 0x44#8 ⟨.ok, false, .linkStatus
        { state := l.state, degraded := l.degraded, enable := l.enable, pause := l.pause, mask := l.mask
          recovery := l.recovery, errors := l.errors, run := l.run, missing := l.missing
          goodRun := if l.state = .align then some l.goodRun else none
          alignCount := if l.state = .align then some l.alignCount else none
          holdOff := if l.state = .fault then some l.holdOff else none
          reason := l.reason, locked := l.locked
          relay := match l.relay with
            | .idle => .idle
            | .sending _ _ => .sending
            | .awaiting _ _ _ => .awaiting
          slots := match s.gen.rate.mult with
            | .x1 => 32
            | .x2 => 16
            | .x4 => 8 }⟩ s))) ∧
  (∀ (tag : Byte) (b : ConverterCommandBody) (rest : List RequestFrame) (s : State),
    Takes (.converterCommand tag (some b)) rest s →
    ((8 ≤ b.link ∨ b.bytes = [] ∨ 8 < b.bytes.length) →
      exec (.converterCommand tag (some b)) s = .next (replied rest tag 0x45#8 ⟨.range, false, .plain⟩ s)) ∧
    (∀ i : Fin 8, b.link = i.val → 1 ≤ b.bytes.length → b.bytes.length ≤ 8 →
      let l := s.links[i]
      (l.state = .off ∨ l.state = .align ∨ l.state = .fault →
        exec (.converterCommand tag (some b)) s = .next (replied rest tag 0x45#8 ⟨.linkDown, false, .plain⟩ s)) ∧
      (l.state = .active ∨ l.state = .paused → l.relay ≠ .idle →
        exec (.converterCommand tag (some b)) s = .next (replied rest tag 0x45#8 ⟨.busy, false, .plain⟩ s)) ∧
      (l.state = .active ∨ l.state = .paused → l.relay = .idle →
        let sending : Link := { l with relay := .sending tag (BitVec.ofNat 8 (0xC0 + b.bytes.length) :: b.bytes) }
        exec (.converterCommand tag (some b)) s = .next (taken rest { s with links := s.links.set i sending }))))

/-! ### The clock unit's requests -/

/-- R88, R94 to R100, R105: CLOCK_CANDIDATES with a list of distinct references and options in range, the limit in ms
(R193; that any whole ms is in range is log entry 19). A candidate on both lists is kept and a new one joins UNQUALIFIED
and waiting; the options are stored; then a holdover at its limit expires, a selected candidate that is no longer
eligible is lost, and the unit looks for the best candidate as its lock state asks: in FREE, in HOLDOVER and after a
loss it is taken, in LOCKED with REVERT set where it ranks before the selected one, in PULL_IN it is not looked for.
Each change of lock state posts its CLOCK_STATE alarm, so a fall to FREE or a loss that is followed by an entry to
PULL_IN posts two. The reply carries the lock state and the selected candidate. Nothing else changes. A field out of
range is RANGE. -/
def Obligations.CandidatesReplaceTheList : Prop :=
  (∀ (tag : Byte) (b : ClockCandidatesBody) (refs : List Reference) (revert : Bool) (rest : List RequestFrame)
    (s : State), Takes (.clockCandidates tag (some b)) rest s →
    b.list = refs.map (fun r => match r with
      | .link n => n.val
      | .wordclock => 8
      | .internal => 9) →
    refs.Nodup → 1 ≤ refs.length → refs.length ≤ 4 → 50 ≤ b.tolerance → b.tolerance ≤ 2000 → 1000 ≤ b.limit →
    b.limit ≤ 60000 → b.revert = revert.toNat →
    let listed : ClockUnit := { s.clock with
      candidates := refs.map fun r => (findCandidate s.clock r).getD
        { ref := r, qualification := .unqualified, window := none, interval := none, deviation := none, goodCount := none }
      tolerance := b.tolerance, limit := b.limit, revert := revert }
    let expired := ∃ start, s.clock.holdStart = some start ∧ start + b.limit * timePerMs ≤ s.clock.time
    let dropped := ∃ ref, s.clock.selected = some ref ∧ ref ∉ refs.takeWhile (fun r => decide (r ≠ .internal))
    let ahead (k : Candidate) := ∀ ref, s.clock.selected = some ref → refs.idxOf k.ref < refs.idxOf ref
    let entry (lock : LockState) (named : Option Reference) (deviation : Option Int) : Alarm :=
      .clockState lock named s.gen.rate deviation s.gen.sampleCounter
    let fallen : ClockUnit := { listed with
      lock := .free, selected := none, lost := none, heldDeviation := none, holdCount := none, holdStart := none
      counters := { s.clock.counters with expiries := bump32 s.clock.counters.expiries } }
    let held : ClockUnit := { listed with
      lock := .holdover, lost := s.clock.selected, selected := none, holdStart := some s.clock.time, runPeriods := 0
      runLong := 0, counters := { s.clock.counters with holdovers := bump32 s.clock.counters.holdovers } }
    let leaves (clock : ClockUnit) (alarms : List Alarm) : Prop :=
      exec (.clockCandidates tag (some b)) s = .next { s with
        clock := clock
        mgmt := afterAlarms alarms { s.mgmt with
          requests := rest
          replies := s.mgmt.replies ++ [⟨tag, 0x50#8, ⟨.ok, false, .lockState clock.lock clock.selected⟩⟩] } }
    let takes (k : Candidate) (clock : ClockUnit) (alarms : List Alarm) : Prop :=
      leaves { clock with
        lock := .pullIn, selected := some k.ref, lost := none, heldDeviation := k.deviation, holdCount := k.goodCount
        holdStart := none, pullInCount := 0, entryLength := s.clock.periodTicks
        counters := { clock.counters with selections := bump32 s.clock.counters.selections } }
        (alarms ++ [entry .pullIn (some k.ref) k.deviation])
    let looks (clock : ClockUnit) (alarms : List Alarm) : Prop :=
      (∀ k, bestCandidate listed = some k → takes k clock alarms) ∧
        (bestCandidate listed = none → leaves clock alarms)
    (s.clock.lock = .free → looks listed []) ∧
    (s.clock.lock = .holdover → expired → looks fallen [entry .free none none]) ∧
    (s.clock.lock = .holdover → ¬ expired → looks listed []) ∧
    (s.clock.lock = .pullIn ∨ s.clock.lock = .locked → dropped →
      looks held [entry .holdover s.clock.selected s.clock.heldDeviation]) ∧
    (s.clock.lock = .pullIn → ¬ dropped → leaves listed []) ∧
    (∀ k, s.clock.lock = .locked → ¬ dropped → revert = true → bestCandidate listed = some k → ahead k →
      takes k listed []) ∧
    (s.clock.lock = .locked → ¬ dropped → (revert = false ∨ ∀ k, bestCandidate listed = some k → ¬ ahead k) →
      leaves listed [])) ∧
  (∀ (tag : Byte) (b : ClockCandidatesBody) (rest : List RequestFrame) (s : State),
    Takes (.clockCandidates tag (some b)) rest s →
    (b.list = [] ∨ 4 < b.list.length ∨ ¬ b.list.Nodup ∨ (∃ n ∈ b.list, 10 ≤ n) ∨ b.tolerance < 50 ∨
      2000 < b.tolerance ∨ b.limit < 1000 ∨ 60000 < b.limit ∨ 2 ≤ b.revert) →
    exec (.clockCandidates tag (some b)) s = .next (replied rest tag 0x50#8 ⟨.range, false, .plain⟩ s))

/-- R98, R101, R106: CLOCK_RATE and CLOCK_STATUS. A rate in range is refused in OPERATE with WRONG_MODE and pending in
SETUP, in place of one taken before; a field out of range is RANGE in either mode (the order of the two refusals is read
from R101, log entry 29). The status reports the unit, every candidate with what is measured of it, the counts of the
frame generator and both outputs, and changes nothing. Its time held over is in whole ms, a fraction dropped (log entry
8); in HOLDOVER the lost candidate's last deviation (R98) is an item of its own, and whether a window is in progress is
one yes/no item (the model's choices, log entry 34). -/
def Obligations.ClockRateAndStatus : Prop :=
  (∀ (tag : Byte) (family : Family) (mult : Mult) (rest : List RequestFrame) (s : State),
    let family' := match family with
      | .k48 => 0
      | .k44 => 1
    let mult' := match mult with
      | .x1 => 0
      | .x2 => 1
      | .x4 => 2
    let c : Instr := .clockRate tag (some ⟨family', mult'⟩)
    Takes c rest s →
      (s.device.mode = .operate → exec c s = .next (replied rest tag 0x51#8 ⟨.wrongMode, false, .plain⟩ s)) ∧
      (s.device.mode = .setup →
        exec c s = .next (replied rest tag 0x51#8 ⟨.ok, false, .plain⟩
          { s with clock := { s.clock with pendingRate := some ⟨family, mult⟩ } }))) ∧
  (∀ (tag : Byte) (b : ClockRateBody) (rest : List RequestFrame) (s : State), Takes (.clockRate tag (some b)) rest s →
    (2 ≤ b.family ∨ 3 ≤ b.mult) →
    exec (.clockRate tag (some b)) s = .next (replied rest tag 0x51#8 ⟨.range, false, .plain⟩ s)) ∧
  (∀ (tag : Byte) (rest : List RequestFrame) (s : State), Takes (.clockStatus tag (some ())) rest s →
    let eligible (ref : Reference) : Bool :=
      decide (ref ∈ (s.clock.candidates.map (·.ref)).takeWhile fun r => decide (r ≠ .internal))
    ∃ v : ClockView,
      exec (.clockStatus tag (some ())) s = .next (replied rest tag 0x52#8 ⟨.ok, false, .clockStatus v⟩ s) ∧
      v.lock = s.clock.lock ∧
      v.selected = (if s.clock.lock = .pullIn ∨ s.clock.lock = .locked then s.clock.selected else none) ∧
      v.lost = (if s.clock.lock = .holdover then s.clock.lost else none) ∧
      v.lostDeviation = (if s.clock.lock = .holdover then s.clock.heldDeviation else none) ∧
      (s.clock.lock ≠ .holdover → v.held = none) ∧
      (∀ start, s.clock.lock = .holdover → s.clock.holdStart = some start →
        v.held = some ((s.clock.time - start) / timePerMs)) ∧
      v.pullInCount = (if s.clock.lock = .pullIn then some s.clock.pullInCount else none) ∧
      v.holdCount = (if s.clock.lock = .free then none else s.clock.holdCount) ∧
      v.candidates = (s.clock.candidates.map fun k =>
        { ref := k.ref
          measured := match k.ref with
            | .internal => none
            | .wordclock => some (eligible k.ref, true, k.qualification, k.window.isSome, k.deviation)
            | .link i => some (eligible k.ref,
                decide (s.links[i].state = .align ∨ s.links[i].state = .active ∨ s.links[i].state = .paused),
                k.qualification, k.window.isSome, k.deviation) }) ∧
      v.tolerance = s.clock.tolerance ∧ v.limit = s.clock.limit ∧ v.revert = s.clock.revert ∧ v.rate = s.gen.rate ∧
      v.pendingRate = s.clock.pendingRate ∧ v.blockSize = s.gen.blockSize ∧ v.blockNumber = s.gen.blockNumber ∧
      v.position = s.gen.position ∧ v.sampleCounter = s.gen.sampleCounter ∧
      v.outputs = s.clock.outputs.toList.map fun o => (o.active, o.waiting))

/-- R103, R104: WCLK_OUT and WCLK_OUT_LATCH. A setting in range becomes the output's pending setting, in place of one
not yet latched; a field out of range is RANGE. The latch makes a pending setting active where the output is disabled or
its output period ends with the sample period in progress, its own output period then to begin; anywhere else it changes
nothing (log entry 4). -/
def Obligations.WordClockOutputs : Prop :=
  (∀ (tag : Byte) (i : Fin 2) (enabled : Bool) (divisor : Nat) (inverted : Bool) (rest : List RequestFrame) (s : State),
    1 ≤ divisor → divisor ≤ 256 →
    let c : Instr := .wclkOut tag (some ⟨i.val, enabled.toNat, divisor, inverted.toNat⟩)
    Takes c rest s →
      exec c s = .next (replied rest tag 0x53#8 ⟨.ok, false, .plain⟩
        (let outputs := s.clock.outputs.set i { s.clock.outputs[i] with waiting := some ⟨enabled, divisor, inverted⟩ }
        { s with clock := { s.clock with outputs := outputs } }))) ∧
  (∀ (tag : Byte) (b : WclkOutBody) (rest : List RequestFrame) (s : State), Takes (.wclkOut tag (some b)) rest s →
    (2 ≤ b.output ∨ 2 ≤ b.enable ∨ b.divisor = 0 ∨ 256 < b.divisor ∨ 2 ≤ b.polarity) →
    exec (.wclkOut tag (some b)) s = .next (replied rest tag 0x53#8 ⟨.range, false, .plain⟩ s)) ∧
  (∀ (i : Fin 2) (s : State), s.powered = true →
    let o := s.clock.outputs[i]
    (∀ setting, o.waiting = some setting →
      (o.active.enabled = false ∨ o.position = some (o.active.divisor - 1)) →
      exec (.wclkOutLatch i) s = .next
        (let outputs := s.clock.outputs.set i { active := setting, waiting := none, position := none }
        { s with clock := { s.clock with outputs := outputs } })) ∧
    ((o.waiting = none ∨ o.active.enabled = true ∧ o.position ≠ some (o.active.divisor - 1)) →
      exec (.wclkOutLatch i) s = .next s))

/-! ### The meter unit's requests -/

/-- R161, R163, R165, R166: METER_POINTS, METER_CONFIG and METER_THRESHOLDS, in either mode. One to eight consecutive points
take their definitions with peak 0 and clip-seen clear, the others keep everything, the configuration number advances
modulo 256 and is answered, and a report in the slot is from then on of an older configuration. An interval of 1 to 255
is stored and the count kept. Sixteen thresholds that do not fall replace the table. Anything out of range is RANGE, a
list of no points or of more than eight among it (log entry 26). -/
def Obligations.MeterRequests : Prop :=
  (∀ (tag : Byte) (b : MeterPointsBody) (points : List MeterPoint) (rest : List RequestFrame) (s : State),
    Takes (.meterPoints tag (some b)) rest s →
    b.points = points.map (fun p =>
      { active := p.active.toNat
        tap := match p.tap with
          | .source => 0
          | .destination => 1
        slot := p.slot.val, binding := p.binding.map fun x => (x.1.val, x.2) }) →
    (∀ p ∈ points, p.peak = 0 ∧ p.clipSeen = false ∧ ∀ x, p.binding = some x → x.2 < 4096) →
    1 ≤ points.length → points.length ≤ 8 → b.first + points.length ≤ 64 →
    ∃ table : Vector MeterPoint 64,
      exec (.meterPoints tag (some b)) s = .next (replied rest tag 0x60#8
        ⟨.ok, false, .configNumber ((s.meter.config + 1) % 256)⟩
        { s with
          meter := { s.meter with points := table, config := (s.meter.config + 1) % 256 }
          mgmt := { s.mgmt with meterSlot := s.mgmt.meterSlot.map fun r => { r with stale := true } } }) ∧
      ∀ n (h : n < 64), (b.first ≤ n → n < b.first + points.length → points[n - b.first]? = some table[n]) ∧
        (n < b.first ∨ b.first + points.length ≤ n → table[n] = s.meter.points[n])) ∧
  (∀ (tag : Byte) (b : MeterPointsBody) (rest : List RequestFrame) (s : State), Takes (.meterPoints tag (some b)) rest s →
    (b.points = [] ∨ 8 < b.points.length ∨ 64 < b.first + b.points.length ∨
      ∃ p ∈ b.points, 2 ≤ p.active ∨ 2 ≤ p.tap ∨ 528 ≤ p.slot ∨ ∃ x, p.binding = some x ∧ (4 ≤ x.1 ∨ 4096 ≤ x.2)) →
    exec (.meterPoints tag (some b)) s = .next (replied rest tag 0x60#8 ⟨.range, false, .plain⟩ s)) ∧
  (∀ (tag : Byte) (n : Nat) (rest : List RequestFrame) (s : State), Takes (.meterConfig tag (some n)) rest s →
    (1 ≤ n → n ≤ 255 →
      exec (.meterConfig tag (some n)) s = .next (replied rest tag 0x61#8 ⟨.ok, false, .plain⟩
        { s with meter := { s.meter with interval := n } })) ∧
    (n = 0 ∨ 255 < n →
      exec (.meterConfig tag (some n)) s = .next (replied rest tag 0x61#8 ⟨.range, false, .plain⟩ s))) ∧
  (∀ (tag : Byte) (l : List Nat) (rest : List RequestFrame) (s : State), Takes (.meterThresholds tag (some l)) rest s →
    l.length = 16 →
    (l.Pairwise (· ≤ ·) → (∀ x ∈ l, x ≤ 8388608) →
      ∃ table : Vector Nat 16, table.toList = l ∧
        exec (.meterThresholds tag (some l)) s = .next (replied rest tag 0x62#8 ⟨.ok, false, .plain⟩
          { s with meter := { s.meter with thresholds := table } })) ∧
    (¬ l.Pairwise (· ≤ ·) ∨ (∃ x ∈ l, 8388608 < x) →
      exec (.meterThresholds tag (some l)) s = .next (replied rest tag 0x62#8 ⟨.range, false, .plain⟩ s)))

/-! ### Modes, the block configuration, the store and the device -/

/-- R66, R67, R72, R83, R152, R153, R184, R185: MODE_SET. SETUP taken in OPERATE releases every hold, an automation gain
becoming the set gain under its own code, and pauses every ACTIVE link; OPERATE taken in SETUP makes every aligned link
without its pause flag ACTIVE. A link that moves presents, from the next sample period, 0 in PAUSED and in ACTIVE the
values that concealment gives: those chosen at the judgement of the frame period that falls due (log entry 13); nothing
else of it changes. Each link that moves posts its LINK_STATE alarm, the links by ascending number (the model's choice,
log entry 35). The mode in force named again changes nothing; a mode field naming neither is RANGE. -/
def Obligations.ModeSetMovesTheMode : Prop :=
  (∀ (tag : Byte) (rest : List RequestFrame) (s : State), Takes (.modeSetSetup tag (some 0)) rest s →
    (s.device.mode = .setup →
      exec (.modeSetSetup tag (some 0)) s = .next (replied rest tag 0x70#8 ⟨.ok, false, .plain⟩ s)) ∧
    (s.device.mode = .operate →
      let released (r : Crosspoint) : Crosspoint := match r.owner, r.automation with
        | none, _ => r
        | some _, none => { r with owner := none }
        | some _, some (gain, code) => restartedFrom r code { r with setGain := gain, owner := none, automation := none }
      exec (.modeSetSetup tag (some 0)) s = .next { s with
        device := { s.device with mode := .setup }
        engine := { s.engine with table := s.engine.table.map released }
        links := s.links.map fun l => if l.state = .active then movedTo .paused l else l
        mgmt := afterAlarms
          ((linkNumbers.filter fun i => decide (s.links[i].state = .active)).map fun i =>
            .linkState i .paused s.links[i].degraded s.links[i].pause s.links[i].errors none s.gen.sampleCounter)
          { s.mgmt with
            requests := rest, replies := s.mgmt.replies ++ [⟨tag, 0x70#8, ⟨.ok, false, .plain⟩⟩] } })) ∧
  (∀ (tag : Byte) (rest : List RequestFrame) (s : State), Takes (.modeSetOperate tag (some 1)) rest s →
    (s.device.mode = .operate →
      exec (.modeSetOperate tag (some 1)) s = .next (replied rest tag 0x70#8 ⟨.ok, false, .plain⟩ s)) ∧
    (s.device.mode = .setup →
      let after (l : Link) : LinkState :=
        if l.state = .active ∨ l.state = .paused then if l.pause then .paused else .active else l.state
      exec (.modeSetOperate tag (some 1)) s = .next { s with
        device := { s.device with mode := .operate }
        links := s.links.map fun l => movedTo (after l) l
        mgmt := afterAlarms
          ((linkNumbers.filter fun i => decide (after s.links[i] ≠ s.links[i].state)).map fun i =>
            .linkState i (after s.links[i]) s.links[i].degraded s.links[i].pause s.links[i].errors none
              s.gen.sampleCounter)
          { s.mgmt with
            requests := rest, replies := s.mgmt.replies ++ [⟨tag, 0x70#8, ⟨.ok, false, .plain⟩⟩] } })) ∧
  (∀ (tag : Byte) (n : Nat) (rest : List RequestFrame) (s : State), Takes (.modeSetSetup tag (some n)) rest s → 2 ≤ n →
    exec (.modeSetSetup tag (some n)) s = .next (replied rest tag 0x70#8 ⟨.range, false, .plain⟩ s))

/-- R4, R115, R116: UPLINK_CONFIG and UPLINK_CONFIG_EFFECT. The request is WRONG_MODE in OPERATE, whatever its values (the
order of the two refusals is read from R115, log entry 29); in SETUP three values in range, R and P within the maximum of
the rate that will be in force at the next block boundary, become the pending configuration; otherwise RANGE. Where a
configuration that differs is due at a boundary, B, R and P take its values, R and P within the maximum of the rate the
boundary brings, and the ring is emptied; nothing else changes, and where none is due nothing at all (log entry 4). -/
def Obligations.BlockConfigurations : Prop :=
  (∀ (tag : Byte) (b : UplinkConfigBody) (rest : List RequestFrame) (s : State), Takes (.uplinkConfig tag (some b)) rest s →
     let rate : Rate := match s.clock.pendingRate with
       | some r => r
       | none => s.gen.rate
     let most := match rate.mult with
       | .x1 => 256
       | .x2 => 128
       | .x4 => 64
     let inRange := IsBlockSize b.blockSize ∧ 1 ≤ b.records ∧ b.records ≤ most ∧ 1 ≤ b.playback ∧ b.playback ≤ most
     (s.device.mode = .operate →
       exec (.uplinkConfig tag (some b)) s = .next (replied rest tag 0x71#8 ⟨.wrongMode, false, .plain⟩ s)) ∧
     (s.device.mode = .setup → inRange →
       exec (.uplinkConfig tag (some b)) s = .next (replied rest tag 0x71#8 ⟨.ok, false, .plain⟩
         { s with uplink := { s.uplink with pendingConfig := some ⟨b.blockSize, b.records, b.playback⟩ } })) ∧
     (s.device.mode = .setup → ¬ inRange →
       exec (.uplinkConfig tag (some b)) s = .next (replied rest tag 0x71#8 ⟨.range, false, .plain⟩ s))) ∧
  ∀ s : State, s.powered = true →
    (∀ c, s.boundary.config = some c →
      exec .uplinkConfigEffect s = .next
        { s with
          boundary := { s.boundary with config := none }
          gen := { s.gen with
            blockSize := c.blockSize
            records := min c.records (maxChannels (s.boundary.rate.getD s.gen.rate).mult)
            playback := min c.playback (maxChannels (s.boundary.rate.getD s.gen.rate).mult) }
          uplink := { s.uplink with
            ring := [], playing := none, playedFlag := false
            counters := { s.uplink.counters with
              flushed := bumpBy max32 s.uplink.ring.length s.uplink.counters.flushed } } }) ∧
    (s.boundary.config = none → exec .uplinkConfigEffect s = .next s)

/-- R186, R187, R188: the store. STORE_WRITE with both flags in range and at most 256 records takes a snapshot of the table
and the rate, with no reply yet; a write in flight is BUSY, whatever the flags (the order of the refusals is read from
R187, log entry 29), a flag out of range or a larger table RANGE. STORE_WRITE_COMPLETE makes the snapshot VALID, counts
it, answers the request OK and posts the STORE alarm; with no write in flight it changes nothing (log entry 4).
STORE_STATUS reports and changes nothing; its time since the taking is in whole ms, a fraction dropped (log entry 8). -/
def Obligations.StoreWritesAndCompletes : Prop :=
  (∀ (tag : Byte) (b : StoreWriteBody) (rest : List RequestFrame) (s : State), Takes (.storeWrite tag (some b)) rest s →
    (∀ p tag' since, s.device.store = .writing p tag' since →
      exec (.storeWrite tag (some b)) s = .next (replied rest tag 0x74#8 ⟨.busy, false, .plain⟩ s)) ∧
    ((∀ p tag' since, s.device.store ≠ .writing p tag' since) →
      (2 ≤ b.autostart ∨ 2 ≤ b.fallback ∨ 256 < s.engine.table.length →
        exec (.storeWrite tag (some b)) s = .next (replied rest tag 0x74#8 ⟨.range, false, .plain⟩ s)) ∧
      (∀ autostart fallback : Bool, b.autostart = autostart.toNat → b.fallback = fallback.toNat →
        s.engine.table.length ≤ 256 →
        let snapshot : StoredPatch :=
          { records := s.engine.table.map fun r => ⟨r.source, r.destination, r.setGain, r.muted, r.ramp⟩
            rate := s.gen.rate, autostart := autostart, fallback := fallback }
        exec (.storeWrite tag (some b)) s = .next (taken rest
          { s with device := { s.device with store := .writing snapshot tag s.clock.time } })))) ∧
  (∀ s : State, InPeriod s →
    (∀ p tag since, s.device.store = .writing p tag since →
      let completed := (s.device.completed + 1) % 65536
      exec .storeWriteComplete s = .next { s with
        device := { s.device with store := .valid p, completed := completed }
        mgmt := afterAlarms [.store .valid (some p.records.length) completed s.gen.sampleCounter]
          { s.mgmt with replies := s.mgmt.replies ++ [⟨tag, 0x74#8, ⟨.ok, false, .plain⟩⟩] } }) ∧
    ((∀ p tag since, s.device.store ≠ .writing p tag since) → exec .storeWriteComplete s = .next s)) ∧
  (∀ (tag : Byte) (rest : List RequestFrame) (s : State), Takes (.storeStatus tag (some ())) rest s →
    ∃ v : StoreView,
      exec (.storeStatus tag (some ())) s = .next (replied rest tag 0x75#8 ⟨.ok, false, .storeStatus v⟩ s) ∧
      v.completed = s.device.completed ∧
      (∀ p, s.device.store = .valid p → v.state = .valid ∧ v.records = some p.records.length ∧ v.rate = some p.rate ∧
        v.autostart = some p.autostart ∧ v.fallback = some p.fallback ∧ v.since = none) ∧
      (∀ p tag' since, s.device.store = .writing p tag' since → v.state = .writing ∧
        v.records = some p.records.length ∧ v.rate = none ∧ v.autostart = some p.autostart ∧
        v.fallback = some p.fallback ∧ v.since = some ((s.clock.time - since) / timePerMs)) ∧
      (s.device.store = .empty → v = ⟨.empty, none, none, none, none, none, s.device.completed⟩) ∧
      (s.device.store = .incomplete → v = ⟨.incomplete, none, none, none, none, none, s.device.completed⟩))

/-- R170, R179 to R182, R190: UNKNOWN, COUNTERS_READ, DEVICE_INFO and DEVICE_RESET. A kind of no request is answered
UNKNOWN under its own code and counted; a group's counters are returned in the order of R179's table (those of a link,
of a surface link, the clip counters of a run of destinations, those of the clock unit, the uplink, the rule unit, the
management processor) and, with clear, set to 0 at the same instant, every other counter staying as it was, a group,
index or count out of range being RANGE; the device reports itself, its own place counted; a reset is answered OK and in
flight, or BUSY where one is already. -/
def Obligations.DeviceRequests : Prop :=
  let held (s : State) : Group → List Nat
    | .link n =>
      let c := s.links[n].counters
      [c.good, c.bad, c.missing, c.extra, c.concealed, c.silenced, c.faults, c.timeouts]
    | .surface n =>
      let c := s.surfaces[n].counters
      [c.received, c.malformed, c.clamped, c.discarded, c.hellos, c.unmatched, c.sent, c.overflow, c.losses]
    | .clip first count => (s.engine.clips.toList.drop first).take count
    | .clock =>
      let c := s.clock.counters
      [c.selections, c.holdovers, c.expiries, c.edgeLosses, c.outOfTolerance]
    | .uplink =>
      let c := s.uplink.counters
      [c.stored, c.played, c.underruns, c.late, c.early, c.duplicates, c.bad, c.flushed, c.losses, c.installs]
    | .rule =>
      let c := s.rules.counters
      [c.matched, c.deadbandDrops, c.missedBindings, c.heldSkips]
    | .management =>
      let c := s.mgmt.counters
      [c.received, c.dropped, c.unknown, c.repliesSent, c.alarmsSent, c.superseded, c.eventsQueued, c.eventsLost,
        c.eventsSent, c.reportsSent]
  (∀ (tag kind : Byte) (rest : List RequestFrame) (s : State), Takes (.unknown tag kind) rest s →
    exec (.unknown tag kind) s = .next (replied rest tag kind ⟨.unknown, false, .plain⟩
      { s with mgmt := { s.mgmt with counters := { s.mgmt.counters with unknown := bump32 s.mgmt.counters.unknown } } })) ∧
  (∀ (tag : Byte) (b : CountersReadBody) (rest : List RequestFrame) (s : State),
    Takes (.countersRead tag (some b)) rest s →
    ((7 ≤ b.group ∨ b.group = 0 ∧ 8 ≤ b.index ∨ b.group = 1 ∧ 4 ≤ b.index ∨
      b.group = 2 ∧ (528 ≤ b.index ∨ b.count = 0 ∨ 64 < b.count ∨ 528 < b.index + b.count) ∨ 2 ≤ b.clear) →
      exec (.countersRead tag (some b)) s = .next (replied rest tag 0x76#8 ⟨.range, false, .plain⟩ s)) ∧
    (∀ (g : Group) (clear : Bool), b.clear = clear.toNat →
      (match g with
      | .link n => b.group = 0 ∧ b.index = n.val
      | .surface n => b.group = 1 ∧ b.index = n.val
      | .clip first count => b.group = 2 ∧ b.index = first ∧ b.count = count ∧ first < 528 ∧ 1 ≤ count ∧ count ≤ 64 ∧
          first + count ≤ 528
      | .clock => b.group = 3
      | .uplink => b.group = 4
      | .rule => b.group = 5
      | .management => b.group = 6) →
      ∃ t, exec (.countersRead tag (some b)) s = .next t ∧ t.mgmt.requests = rest ∧
        t.mgmt.replies = s.mgmt.replies ++ [⟨tag, 0x76#8, ⟨.ok, false, .counters g.wide (held s g)⟩⟩] ∧
        (clear = false → t = replied rest tag 0x76#8 ⟨.ok, false, .counters g.wide (held s g)⟩ s) ∧
        (clear = true → (∀ n ∈ held t g, n = 0) ∧
          (∀ g' : Group, g' ≠ g → (∀ first count, g' ≠ .clip first count) → held t g' = held s g') ∧
          (∀ first count, g = .clip first count → ∀ d : Slot, d.val < first ∨ first + count ≤ d.val →
            t.engine.clips[d] = s.engine.clips[d]) ∧
          ((∀ first count, g ≠ .clip first count) → t.engine.clips = s.engine.clips) ∧
          t.engine.table = s.engine.table ∧ t.device = s.device ∧ t.gen = s.gen))) ∧
  (∀ (tag : Byte) (rest : List RequestFrame) (s : State), Takes (.deviceInfo tag (some ())) rest s →
    ∃ v : DeviceView,
      exec (.deviceInfo tag (some ())) s = .next (replied rest tag 0x73#8 ⟨.ok, false, .deviceInfo v⟩ s) ∧
      v.mode = s.device.mode ∧ v.rate = s.gen.rate ∧ v.blockSize = s.gen.blockSize ∧ v.playback = s.gen.playback ∧
      v.records = s.gen.records ∧ v.blockNumber = s.gen.blockNumber ∧ v.sampleCounter = s.gen.sampleCounter ∧
      v.store = (match s.device.store with
        | .empty => .empty
        | .writing _ _ _ => .writing
        | .valid _ => .valid
        | .incomplete => .incomplete) ∧
      v.uplink = s.uplink.state ∧ v.resets = s.device.resets ∧ v.places = placesInUse s ∧
      v.edits = s.engine.edits.length ∧ v.listSealed = s.engine.commit.isSome) ∧
  (∀ (tag : Byte) (rest : List RequestFrame) (s : State), Takes (.deviceReset tag (some ())) rest s →
    (s.device.resetState = .idle →
      exec (.deviceReset tag (some ())) s = .next (replied rest tag 0x72#8 ⟨.ok, false, .plain⟩
        { s with device := { s.device with resetState := .replying } })) ∧
    (s.device.resetState ≠ .idle →
      exec (.deviceReset tag (some ())) s = .next (replied rest tag 0x72#8 ⟨.busy, false, .plain⟩ s)))

/-! ### The upstream lane -/

/-- R109, R172, R174 to R178, R190: UP_BLOCK_SENT, MESSAGE_FRAME_END and ARBITER_CHOICE. A sent UP block restarts the
frame count; a sent message frame frees the place of a reply, and the reply of a DEVICE_RESET lets the reset act; then a
due UP block begins. The arbiter chooses with the lane free, no UP block due and fewer than 16 frames begun since the
last one: the first alarm; the oldest reply, passed over while the uplink is LOST; a report that has waited 8 boundaries
(promoted or not yet, log entry 22); the oldest event, which takes the pending-loss count with it; any report. What is
chosen leaves its store, is counted and takes the lane. Where its condition does not hold each changes nothing (log
entry 4); when a choice is made is the sender's to say (log entry 21). An alarm that is posted is appended with a
superseded count of 0, or replaces the entry of its key in place with that count one higher, held at 255, and is
counted; the keys are a link, a surface link, the clock, the uplink and the store. -/
def Obligations.TheLaneKeepsItsOrder : Prop :=
  (∀ s : State, InPeriod s →
     let lane := match s.mgmt.blocksDue with
       | [] => Lane.free
       | b :: _ => Lane.block b
     (∀ b, s.mgmt.lane = .block b →
       exec .upBlockSent s = .next
         { s with mgmt := { s.mgmt with lane := lane, blocksDue := s.mgmt.blocksDue.tail, frameCount := 0 } }) ∧
     ((∀ b, s.mgmt.lane ≠ .block b) → exec .upBlockSent s = .next s) ∧
     (∀ m, s.mgmt.lane = .message m →
       ∃ t, exec .messageFrameEnd s = .next t ∧
         t = { s with
           mgmt := { s.mgmt with lane := lane, blocksDue := s.mgmt.blocksDue.tail }
           device := { s.device with resetState := t.device.resetState } } ∧
         (∀ r, m = .reply r → placesInUse t + 1 = placesInUse s) ∧
         ((∀ r, m ≠ .reply r) → placesInUse t = placesInUse s) ∧
         t.device.resetState =
           (match m with
           | .reply r => if r.kind = 0x72#8 ∧ r.answer.status = .ok ∧ s.device.resetState = .replying then .ready
               else s.device.resetState
           | _ => s.device.resetState)) ∧
     ((∀ m, s.mgmt.lane ≠ .message m) → exec .messageFrameEnd s = .next s)) ∧
  (∀ (a : Alarm) (s : State),
    let key (x : Alarm) : AlarmKey := match x with
      | .linkState n _ _ _ _ _ _ => .link n
      | .surfaceState n _ _ _ _ => .surface n
      | .clockState _ _ _ _ _ => .clock
      | .uplink _ _ _ _ _ _ _ => .uplink
      | .store _ _ _ _ => .store
    let posted (queue : List AlarmEntry) (superseded : Nat) : Prop :=
      queueAlarm a s.mgmt.alarms = queue ∧
        postAlarm a s = { s with mgmt := { s.mgmt with
          alarms := queue, counters := { s.mgmt.counters with superseded := superseded } } }
    ((∀ e ∈ s.mgmt.alarms, key e.alarm ≠ key a) →
      posted (s.mgmt.alarms ++ [⟨a, 0⟩]) s.mgmt.counters.superseded) ∧
    (∀ before e after, s.mgmt.alarms = before ++ e :: after → key e.alarm = key a →
      (∀ x ∈ before ++ after, key x.alarm ≠ key a) →
      posted (before ++ ⟨a, if e.superseded < 255 then e.superseded + 1 else e.superseded⟩ :: after)
        (bump32 s.mgmt.counters.superseded))) ∧
  ∀ s : State, InPeriod s →
    let m := s.mgmt
    let promoted (r : SlotReport) : Prop := r.promoted = true ∨ 8 ≤ r.age
    let sends (x : Message) (m' : Management) : Prop :=
      exec .arbiterChoice s = .next
        { s with mgmt := { m' with lane := .message x, frameCount := m.frameCount + 1 } }
    let noReply := m.replies = [] ∨ s.uplink.state = .lost
    (m.lane = .free → m.blocksDue = [] → m.frameCount < 16 →
      (∀ e rest, m.alarms = e :: rest → sends (.alarm e)
        { m with alarms := rest, counters := { m.counters with alarmsSent := bump32 m.counters.alarmsSent } }) ∧
      (∀ r rest, m.alarms = [] → s.uplink.state = .up → m.replies = r :: rest → sends (.reply r)
        { m with replies := rest, counters := { m.counters with repliesSent := bump32 m.counters.repliesSent } }) ∧
      (∀ r, m.alarms = [] → noReply → m.meterSlot = some r → promoted r ∨ m.events = [] → sends (.meter r.report)
        { m with meterSlot := none, counters := { m.counters with reportsSent := bump32 m.counters.reportsSent } }) ∧
      (∀ e rest, m.alarms = [] → noReply → (∀ r, m.meterSlot = some r → ¬ promoted r) → m.events = e :: rest →
        sends (.event e m.pendingLoss)
          { m with events := rest, pendingLoss := 0
                   counters := { m.counters with eventsSent := bump32 m.counters.eventsSent } }) ∧
      (m.alarms = [] → noReply → m.meterSlot = none → m.events = [] → exec .arbiterChoice s = .next s)) ∧
    (m.lane ≠ .free ∨ m.blocksDue ≠ [] ∨ 16 ≤ m.frameCount → exec .arbiterChoice s = .next s)

/-! ### Converter frames and the links' timers -/

/-- R60, R84, R90: FRAME_START. In ALIGN, ACTIVE or PAUSED a start takes the earliest frame period whose window is open
and has none: that of the period in progress, or of the one before it during its first quarter, a quarter being that of
the period in progress (log entry 8) with the tick at its very end (the model's choice, log entry 38); it is an edge of
the link as a clock reference (see `EdgesMeasureTheirReference`). With no such window it is counted as an extra start
and nothing else changes. In OFF and FAULT nothing changes. -/
def Obligations.FrameStartsTakeTheEarliestWindow : Prop :=
  ∀ (i : Fin 8) (phase : Nat) (countFirst : Bool) (s : State), InPeriod s →
    let l := s.links[i]
    let isOpen (f : FramePeriod) : Prop :=
      f.status = .unstarted ∧ (f.age = 0 ∨ f.age = 1 ∧ 4 * phase ≤ s.clock.periodTicks)
    let receives := l.state = .align ∨ l.state = .active ∨ l.state = .paused
    (∀ before f after, receives → l.frames = before ++ f :: after → (∀ g ∈ before, ¬ isOpen g) → isOpen f →
      exec (.frameStart i phase countFirst) s = .next (referenceEdge (.link i) phase countFirst
        (let frames := before ++ { f with status := .started } :: after
        { s with links := s.links.set i { l with frames := frames } }))) ∧
    (receives → (∀ f ∈ l.frames, ¬ isOpen f) →
      exec (.frameStart i phase countFirst) s = .next
        (let counters := { l.counters with extra := bump32 l.counters.extra }
        { s with links := s.links.set i { l with counters := counters } })) ∧
    (¬ receives → exec (.frameStart i phase countFirst) s = .next s)

/-- R61, R62, R65 to R72, R81 to R83: the judgement of the oldest waiting frame period of a link in ALIGN, ACTIVE or
PAUSED, by CONVERTER_FRAME, FRAME_INCOMPLETE and MISSING_FRAME. A frame of the right length and check in sequence is
good: its samples become the last good frame, the run ends and the error counter falls by one; the eighth in a row ends
ALIGN, and what was judged in ALIGN before it is never presented (log entry 13). What a good frame does to a reply being
gathered is `RepliesAreGathered`. A frame out of sequence, one whose check or length is wrong, one not wholly received
and a missing one advance the sequence reference by one or, at a sequence break, take that frame's number (an absent one
stays absent, log entry 39), add 8 to the error counter and one to the run and discard what was gathered of a reply; the
16th missing frame in a row and an addition past 255 enter FAULT, MISSING before ERRORS, and end a command with ABORTED.
A frame whose period stands behind one that has no frame start is judged after it, which is judged missing first; where
the oldest waiting period has no start, FRAME_INCOMPLETE, and a frame with no started period, change nothing (log entry
4). A judgement that enters FAULT counts like any other, and its frame period and those behind it have no values to
present, so that 0 is presented from its period on (R62, R68; `StepKeepsLinksSound`). A change of state or of DEGRADED
posts the link's alarm. Nothing but the link and the transmitter changes while the link stays out of FAULT, and where it
does not only the clock unit beside them, whose candidate of that link becomes UNQUALIFIED. -/
def Obligations.JudgementsCountAndConceal : Prop :=
  ∀ (i : Fin 8) (s : State), InPeriod s →
    s.links[i].state = .align ∨ s.links[i].state = .active ∨ s.links[i].state = .paused →
    let l := s.links[i]
    let aligning : Bool := decide (l.state = .align)
    let stays (c : Instr) (l' : Link) : Prop :=
      exec c s = .next { s with
        links := s.links.set i l'
        mgmt := afterAlarms
          (if l'.state = l.state ∧ l'.degraded = l.degraded then []
          else [.linkState i l'.state l'.degraded l.pause l'.errors none s.gen.sampleCounter]) s.mgmt }
    let degradedAt (errors : Nat) : Bool := if l.degraded then decide (64 ≤ errors) else decide (96 ≤ errors)
    let framesWith (p : Presentation) (before after : List FramePeriod) (f : FramePeriod) : List FramePeriod :=
      if aligning then { f with status := .judged p } :: after.filter FramePeriod.unjudged
      else before ++ { f with status := .judged p } :: after
    let run := if l.run < 255 then l.run + 1 else l.run
    let concealed (active : Bool) : Presentation := ⟨active, if run ≤ 4 then .repeated else .silent,
      if run ≤ 4 then l.lastGood else Vector.replicate 32 0⟩
    let troubled (reference : Option Byte) (missing : Nat) (counters : LinkCounters) (before after : List FramePeriod)
        (f : FramePeriod) : Link :=
      { l with
        reference := reference, run := run, missing := missing, errors := l.errors + 8
        degraded := degradedAt (l.errors + 8), counters := counters
        goodRun := if aligning then 0 else l.goodRun
        relay := match l.relay with
          | .awaiting tag count _ => .awaiting tag count none
          | other => other
        frames := framesWith (concealed (decide (l.state = .active))) before after f }
    let faults (c : Instr) (reason : FaultReason) (counted : Link) (before after : List FramePeriod) (f : FramePeriod) :
        Prop :=
      EntersFault c i reason
        { counted with frames := before ++ { f with status := .judged (concealed false) } :: after } s
    ∀ before f after, l.frames = before ++ f :: after → (∀ g ∈ before, g.unjudged = false) →
      (∀ bytes, f.status = .started → bytes.length = 4 * slotsPerLink s.gen.rate.mult + 4 →
        bytes.getLast? = some (check8 bytes.dropLast) →
        (l.reference = none ∨ ∃ r, l.reference = some r ∧ bytes.head? = some (r + 1)) →
        (∀ tag count gathered, l.relay ≠ .awaiting tag count gathered) →
        let state : LinkState :=
          if aligning = true ∧ 8 ≤ l.goodRun + 1 then
            if s.device.mode = .setup ∨ l.pause = true then .paused else .active
          else l.state
        ∃ samples : Vector Int 32,
          (∀ k < slotsPerLink s.gen.rate.mult, samples[k]? = (containersOf ((bytes.drop 3).dropLast))[k]?.map
            fun c => c.toInt / 256) ∧
          (∀ k (h : k < 32), slotsPerLink s.gen.rate.mult ≤ k → samples[k] = 0) ∧
          stays (.converterFrame i bytes) { l with
            state := state, reference := bytes.head?, lastGood := samples
            locked := some ((bytes.getD 1 0).getLsbD 0), run := 0, missing := 0, errors := l.errors - 1
            degraded := degradedAt (l.errors - 1), goodRun := if aligning then l.goodRun + 1 else l.goodRun
            counters := { l.counters with good := bump32 l.counters.good }
            frames := framesWith ⟨decide (state = .active), .good, samples⟩ before after f }) ∧
      (∀ bytes, f.status = .started →
        (bytes.length ≠ 4 * slotsPerLink s.gen.rate.mult + 4 ∨ bytes.getLast? ≠ some (check8 bytes.dropLast)) →
        let counters := { l.counters with bad := bump32 l.counters.bad }
        let counted := troubled (l.reference.map (· + 1)) 0 counters before after f
        (l.errors + 8 ≤ 255 → stays (.converterFrame i bytes) counted) ∧
        (255 < l.errors + 8 → faults (.converterFrame i bytes) .errors counted before after f)) ∧
      (∀ bytes r q, f.status = .started → bytes.length = 4 * slotsPerLink s.gen.rate.mult + 4 →
        bytes.getLast? = some (check8 bytes.dropLast) → l.reference = some r → bytes.head? = some q → q ≠ r + 1 →
        let counters := { l.counters with bad := bump32 l.counters.bad }
        let counted := troubled (some q) 0 counters before after f
        (l.errors + 8 ≤ 255 → stays (.converterFrame i bytes) counted) ∧
        (255 < l.errors + 8 → faults (.converterFrame i bytes) .errors counted before after f)) ∧
      (f.status = .started → 1 ≤ f.age →
        let counters := { l.counters with bad := bump32 l.counters.bad }
        let counted := troubled (l.reference.map (· + 1)) 0 counters before after f
        (l.errors + 8 ≤ 255 → stays (.frameIncomplete i) counted) ∧
        (255 < l.errors + 8 → faults (.frameIncomplete i) .errors counted before after f)) ∧
      (f.status = .unstarted → 1 ≤ f.age →
        let counters := { l.counters with missing := bump32 l.counters.missing }
        let counted := troubled (l.reference.map (· + 1)) (l.missing + 1) counters before after f
        (l.missing < 15 → l.errors + 8 ≤ 255 → stays (.missingFrame i) counted) ∧
        (l.missing < 15 → 255 < l.errors + 8 → faults (.missingFrame i) .errors counted before after f) ∧
        (l.missing = 15 → faults (.missingFrame i) .missing counted before after f)) ∧
      (f.status = .unstarted → exec (.frameIncomplete i) s = .next s) ∧
      (∀ bytes u, f.status = .unstarted → 1 ≤ f.age → (∃ g rest, after = g :: rest ∧ g.status = .started) →
        exec (.missingFrame i) s = .next u → exec (.converterFrame i bytes) s = exec (.converterFrame i bytes) u) ∧
      (∀ bytes, f.status = .unstarted → (f.age = 0 ∨ ∀ g ∈ after, g.status ≠ .started) →
        exec (.converterFrame i bytes) s = .next s)

/-- R81: the reply of a converter command. While the relay is AWAITING, the reply byte of a good frame is read: 0xA0
completes an empty reply and 0xA1 to 0xA8 open one of that many bytes, any other byte is no reply yet; the bytes that
follow are gathered, and the last of them completes the reply, which is answered OK with the bytes gathered, the relay
being idle then. The frame of the 256th period counted, judged within that period, cannot complete the reply: it leaves
the relay waiting as it was (read from R81's last frame, log entry 37). In everything else the frame does what it does
on the same link with an idle relay (see `JudgementsCountAndConceal`). -/
def Obligations.RepliesAreGathered : Prop :=
  ∀ (i : Fin 8) (s : State) (before after : List FramePeriod) (f : FramePeriod) (bytes : List Byte) (tag : Byte)
    (count : Nat) (gathered : Option (Nat × List Byte)), InPeriod s →
    s.links[i].state = .align ∨ s.links[i].state = .active ∨ s.links[i].state = .paused →
    s.links[i].frames = before ++ f :: after → (∀ g ∈ before, g.unjudged = false) → f.status = .started →
    bytes.length = 4 * slotsPerLink s.gen.rate.mult + 4 → bytes.getLast? = some (check8 bytes.dropLast) →
    (s.links[i].reference = none ∨ ∃ r, s.links[i].reference = some r ∧ bytes.head? = some (r + 1)) →
    s.links[i].relay = .awaiting tag count gathered →
    let late := 255 ≤ count ∧ f.age = 0
    let byte := bytes.getD 2 0
    ∃ u, exec (.converterFrame i bytes)
        { s with links := s.links.set i { s.links[i] with relay := .idle } } = .next u ∧
      (let completes (reply : List Byte) : Prop :=
        exec (.converterFrame i bytes) s = .next
          { u with mgmt := { u.mgmt with
            replies := u.mgmt.replies ++ [⟨tag, 0x45#8, ⟨.ok, false, .bytes reply⟩⟩] } }
      let waits (g : Option (Nat × List Byte)) : Prop :=
        exec (.converterFrame i bytes) s = .next
          { u with links := u.links.set i { u.links[i] with relay := .awaiting tag count g } }
      u.links[i].relay = .idle ∧
      (gathered = none → byte = 0xA0#8 → (¬ late → completes []) ∧ (late → waits none)) ∧
      (gathered = none → 0xA1#8 ≤ byte → byte ≤ 0xA8#8 → waits (some (byte.toNat - 0xA0, []))) ∧
      (gathered = none → byte < 0xA0#8 ∨ 0xA8#8 < byte → waits none) ∧
      ∀ left got, gathered = some (left, got) →
        (left ≤ 1 → (¬ late → completes (got ++ [byte])) ∧ (late → waits (some (left, got)))) ∧
          (1 < left → waits (some (left - 1, got ++ [byte]))))

/-- R62, R65, R66, R68, R81: NO_SYNC, HOLD_OFF_EXPIRY and COMMAND_TIMEOUT, each at the end of the frame period that
brings its count to the limit: an ALIGN of 4096 periods is a fault, with all that an entry to FAULT does, its frame
periods as in ALIGN without values to present and none waiting; a hold-off of 2048 under AUTO enters ALIGN and posts the
link's alarm (log entries 12 and 13); and a command that has waited 256 periods is answered TIMEOUT with its relay idle.
Before that each changes nothing (log entry 4). -/
def Obligations.LinkTimers : Prop :=
  ∀ (i : Fin 8) (s : State), InPeriod s →
    let l := s.links[i]
    (l.state = .align → l.fresh = false → 4096 ≤ l.alignCount + 1 → EntersFault (.noSync i) i .noSync l s) ∧
    ((l.state ≠ .align ∨ l.fresh = true ∨ l.alignCount + 1 < 4096) → exec (.noSync i) s = .next s) ∧
    (l.state = .fault → l.recovery = .auto → l.fresh = false → 2048 ≤ l.holdOff + 1 →
      exec (.holdOffExpiry i) s = .next { s with
        links := s.links.set i (freshAlign l)
        mgmt := afterAlarms [.linkState i .align false l.pause 0 none s.gen.sampleCounter]
          { s.mgmt with replies := s.mgmt.replies ++ abortedReplies l } }) ∧
    ((l.state ≠ .fault ∨ l.recovery ≠ .auto ∨ l.fresh = true ∨ l.holdOff + 1 < 2048) →
      exec (.holdOffExpiry i) s = .next s) ∧
    (∀ tag count gathered, l.relay = .awaiting tag count gathered → 256 ≤ count + 1 →
      exec (.commandTimeout i) s = .next
        (let counters := { l.counters with timeouts := bump32 l.counters.timeouts }
        { s with
          links := s.links.set i { l with relay := .idle, counters := counters }
          mgmt := { s.mgmt with replies := s.mgmt.replies ++ [⟨tag, 0x45#8, ⟨.timeout, false, .plain⟩⟩] } })) ∧
    ((∀ tag count gathered, l.relay = .awaiting tag count gathered → count + 1 < 256) →
      exec (.commandTimeout i) s = .next s)

/-! ### The clock unit's events -/

/-- R90, R92, R96: an edge of a reference, by WORDCLOCK_EDGE or as `FrameStartsTakeTheEarliestWindow` says. Where four
nominal periods have passed since the latest edge, edge loss comes first (an edge exactly then is a new edge, log entry
36). An edge of the selected candidate in PULL_IN also counts toward the pull-in, before the window or after it as the
command says (R96 allows both, log entry 10): before it, the 256th makes the unit LOCKED first. In a window the first
edge of a waiting candidate starts it and each of the 62 after it is counted and gives the reference's period (the time
since the latest edge over the whole number of nominal periods nearest to it, log entry 9); the 64th after the first
completes it (see `WindowsMoveTheLock`). A reference that is not on the list is not measured. -/
def Obligations.EdgesMeasureTheirReference : Prop :=
  (∀ (ref : Reference) (phase : Nat) (countFirst : Bool) (s : State), InPeriod s →
    let t := s.clock.ticks + phase
    let spaced := match s.gen.rate.mult with
      | .x1 => 2048
      | .x2 => 1024
      | .x4 => 512
    let late := ∃ k w, findCandidate s.clock ref = some k ∧ k.window = some w ∧ w.latest + spaced < t
    let pulling := s.clock.lock = .pullIn ∧ s.clock.selected = some ref
    let counted : ClockUnit := { s.clock with
      pullInCount := if s.clock.pullInCount < 256 then s.clock.pullInCount + 1 else s.clock.pullInCount }
    exec (.wordclockEdge phase countFirst) s = .next (referenceEdge .wordclock phase countFirst s) ∧
    (late → referenceEdge ref phase countFirst s = measureEdge ref t (loseReference ref s)) ∧
    (late → phase ≤ s.clock.periodTicks → exec (.edgeLoss ref) s = .next (loseReference ref s)) ∧
    (¬ late → ¬ pulling → referenceEdge ref phase countFirst s = measureEdge ref t s) ∧
    (∀ u, ¬ late → pulling → countFirst = true → exec .pullInCount { s with clock := counted } = .next u →
      referenceEdge ref phase countFirst s = measureEdge ref t u) ∧
    (¬ late → pulling → countFirst = false → (measureEdge ref t s).clock.lock = .pullIn →
      referenceEdge ref phase countFirst s = measureEdge ref t { s with clock := counted }) ∧
    (¬ late → pulling → countFirst = false → (measureEdge ref t s).clock.lock ≠ .pullIn →
      referenceEdge ref phase countFirst s = measureEdge ref t s)) ∧
  ∀ (ref : Reference) (t : Nat) (s : State),
    let becomes (f : Candidate → Candidate) : State := { s with clock := { s.clock with
      candidates := s.clock.candidates.map fun k => if k.ref = ref then f k else k } }
    (findCandidate s.clock ref = none → measureEdge ref t s = s) ∧
    ∀ k, findCandidate s.clock ref = some k →
      (k.window = none → measureEdge ref t s = becomes fun k => { k with window := some ⟨0, t, t⟩ }) ∧
      (∀ w, k.window = some w → w.edges < 63 →
        let nominal := match s.gen.rate.mult with
          | .x1 => 512
          | .x2 => 256
          | .x4 => 128
        let d := t - w.latest
        measureEdge ref t s = becomes fun k =>
          { k with
            window := some ⟨w.edges + 1, w.start, t⟩
            interval := some (d / max 1 ((2 * d + nominal) / (2 * nominal))) })

/-- R88, R90, R91, R93 to R99: the edge that completes a measurement window, the 64th after its first, which starts the
next at the same edge. The deviation is (N − m) × 1,000,000 ÷ N truncated toward zero; in tolerance it moves the
candidate up one qualification state and gives its m, which the unit keeps as the holdover count while it follows the
candidate, out of tolerance it disqualifies it and is counted; the deviation of the selected or lost candidate is held
apart. Then the lock state acts: a followed candidate out of tolerance is lost to HOLDOVER; in FREE and in HOLDOVER the
best candidate is taken, in LOCKED with REVERT set where it ranks before the selected one, in PULL_IN none. The best
candidate is the first in list order that is QUALIFIED and eligible: ranked before INTERNAL, or with INTERNAL not on the
list. At a completion of any candidate the best one is taken, a candidate already QUALIFIED at the loss too (the model's
choice between R94 and the words "its own next window completion" of R99, log entry 40). Each change of lock state posts
its CLOCK_STATE alarm, at an open block boundary with the stamp of the period that begins there (log entry 20). (The
reference's period is log entry 9.) -/
def Obligations.WindowsMoveTheLock : Prop :=
  (∀ (c : ClockUnit) (best : Candidate),
    let refs := c.candidates.map (·.ref)
    let may (k : Candidate) : Prop :=
      (Reference.internal ∉ refs ∨ refs.idxOf k.ref < refs.idxOf .internal) ∧ k.qualification = .qualified
    bestCandidate c = some best ↔
      ∃ before after, c.candidates = before ++ best :: after ∧ may best ∧ ∀ k ∈ before, ¬ may k) ∧
  ∀ (ref : Reference) (t : Nat) (k : Candidate) (w : Window) (s : State),
    findCandidate s.clock ref = some k → k.window = some w → 63 ≤ w.edges →
    let nominal : Nat := match s.gen.rate.mult with
      | .x1 => 512
      | .x2 => 256
      | .x4 => 128
    let deviation : Int := (((64 * nominal : Nat) - (t - w.start : Nat) : Int) * 1000000).tdiv (64 * nominal : Nat)
    let good : Bool := decide (deviation.natAbs ≤ s.clock.tolerance)
    let followed := (s.clock.lock = .pullIn ∨ s.clock.lock = .locked) ∧ s.clock.selected = some ref
    let d := t - w.latest
    let judged : ClockUnit := { s.clock with
      candidates := s.clock.candidates.map fun k =>
        if k.ref = ref then
          { k with
            window := some ⟨0, t, t⟩, interval := some (d / max 1 ((2 * d + nominal) / (2 * nominal)))
            deviation := some deviation, goodCount := if good then some (t - w.start) else k.goodCount
            qualification := if good then (if k.qualification = .unqualified then .qualifying else .qualified)
              else .unqualified }
        else k
      heldDeviation := if s.clock.selected = some ref ∨ s.clock.lost = some ref then some deviation
        else s.clock.heldDeviation
      holdCount := if followed ∧ good = true then some (t - w.start) else s.clock.holdCount
      counters := if good then s.clock.counters
        else { s.clock.counters with outOfTolerance := bump32 s.clock.counters.outOfTolerance } }
    let becomes (clock : ClockUnit) (named : Option Reference) (dev : Option Int) : Prop :=
      measureEdge ref t s = { s with
        clock := clock, mgmt := afterAlarms [.clockState clock.lock named s.gen.rate dev (stampNow s)] s.mgmt }
    let taken (best : Candidate) : ClockUnit := { judged with
      lock := .pullIn, selected := some best.ref, lost := none, heldDeviation := best.deviation
      holdCount := best.goodCount, holdStart := none, pullInCount := 0, entryLength := s.clock.periodTicks
      counters := { judged.counters with selections := bump32 s.clock.counters.selections } }
    let ahead (best : Candidate) := ∀ sel, s.clock.selected = some sel →
      (s.clock.candidates.map (·.ref)).idxOf best.ref < (s.clock.candidates.map (·.ref)).idxOf sel
    let stays := measureEdge ref t s = { s with clock := judged }
    (followed → good = false →
      becomes { judged with
        lock := .holdover, lost := some ref, selected := none, holdStart := some s.clock.time, runPeriods := 0
        runLong := 0, counters := { judged.counters with holdovers := bump32 s.clock.counters.holdovers } }
        (some ref) (some deviation)) ∧
    (s.clock.lock = .pullIn → (¬ followed ∨ good = true) → stays) ∧
    (∀ best, s.clock.lock = .locked → (¬ followed ∨ good = true) → bestCandidate judged = some best →
      s.clock.revert = true → ahead best → becomes (taken best) (some best.ref) best.deviation) ∧
    (s.clock.lock = .locked → (¬ followed ∨ good = true) →
      (s.clock.revert = false ∨ ∀ best, bestCandidate judged = some best → ¬ ahead best) → stays) ∧
    (∀ best, s.clock.lock = .free ∨ s.clock.lock = .holdover → bestCandidate judged = some best →
      becomes (taken best) (some best.ref) best.deviation) ∧
    (s.clock.lock = .free ∨ s.clock.lock = .holdover → bestCandidate judged = none → stays)

/-- R86, R92, R96, R97, R98, R99: EDGE_LOSS, PULL_IN_COUNT and HOLDOVER_EXPIRY. Four nominal periods without an edge
disqualify a candidate, which then waits, and one that is being followed is lost to HOLDOVER; at a pull-in count of 256
the unit is LOCKED, with its offset from the reference's edges: the time from the latest edge to the end of the period
in progress and one period of the reference more (log entry 9); a holdover whose timer reaches the limit, which is in
ms, falls to FREE (times are those of sample periods, log entry 8). Each posts the CLOCK_STATE alarm of the change, and
each changes nothing where it is not due (log entry 4). -/
def Obligations.ClockEvents : Prop :=
  ∀ s : State, InPeriod s →
    let silent (ref : Reference) : Prop := ∃ k w, findCandidate s.clock ref = some k ∧ k.window = some w ∧
      w.latest + (match s.gen.rate.mult with
        | .x1 => 2048
        | .x2 => 1024
        | .x4 => 512) ≤ s.clock.ticks + s.clock.periodTicks
    let followed (ref : Reference) : Prop :=
      (s.clock.lock = .pullIn ∨ s.clock.lock = .locked) ∧ s.clock.selected = some ref
    let without (ref : Reference) : ClockUnit := { s.clock with
      candidates := s.clock.candidates.map fun k =>
        if k.ref = ref then { k with qualification := .unqualified, window := none } else k
      counters := { s.clock.counters with edgeLosses := bump32 s.clock.counters.edgeLosses } }
    let alarmed (c : Instr) (clock : ClockUnit) (ref : Option Reference) (deviation : Option Int) : Prop :=
      exec c s = .next { s with
        clock := clock
        mgmt := afterAlarms [.clockState clock.lock ref s.gen.rate deviation s.gen.sampleCounter] s.mgmt }
    (∀ ref, silent ref → ¬ followed ref → exec (.edgeLoss ref) s = .next { s with clock := without ref }) ∧
    (∀ ref, silent ref → followed ref → alarmed (.edgeLoss ref)
      { without ref with
        lock := .holdover, lost := some ref, selected := none, holdStart := some s.clock.time, runPeriods := 0, runLong := 0
        counters := { s.clock.counters with
          edgeLosses := bump32 s.clock.counters.edgeLosses, holdovers := bump32 s.clock.counters.holdovers } }
      (some ref) s.clock.heldDeviation) ∧
    (∀ ref, ¬ silent ref → exec (.edgeLoss ref) s = .next s) ∧
    (∀ e, s.clock.lock = .pullIn → 256 ≤ s.clock.pullInCount → latestEdge s.clock = some e →
      alarmed .pullInCount
        { s.clock with
          lock := .locked, lockOffset := s.clock.ticks + s.clock.periodTicks + referencePeriod s.clock - e }
        s.clock.selected s.clock.heldDeviation) ∧
    (s.clock.lock = .pullIn → 256 ≤ s.clock.pullInCount → latestEdge s.clock = none →
      alarmed .pullInCount { s.clock with lock := .locked, lockOffset := 0 } s.clock.selected s.clock.heldDeviation) ∧
    ((s.clock.lock ≠ .pullIn ∨ s.clock.pullInCount < 256) → exec .pullInCount s = .next s) ∧
    (∀ start, s.clock.lock = .holdover → s.clock.holdStart = some start →
      (start + s.clock.limit * timePerMs ≤ s.clock.time + s.clock.periodTime →
        alarmed .holdoverExpiry
          { s.clock with
            lock := .free, selected := none, lost := none, heldDeviation := none, holdCount := none, holdStart := none
            counters := { s.clock.counters with expiries := bump32 s.clock.counters.expiries } } none none) ∧
      (s.clock.time + s.clock.periodTime < start + s.clock.limit * timePerMs →
        exec .holdoverExpiry s = .next s)) ∧
    (s.clock.lock ≠ .holdover → exec .holdoverExpiry s = .next s)

/-! ### Surface messages -/

/-- R122, R124, R125, R128: HELLO, KEEPALIVE, MALFORMED_MESSAGE and MESSAGE_INCOMPLETE. A HELLO takes a link that is not
ONLINE there, and in every state marks a HELLO_ACK, restarts the silence timer and records the model code, with an alarm
unless the link was ONLINE under that code. A KEEPALIVE restarts the timer in ONLINE and is discarded elsewhere. A
malformed run is only counted; a start byte that cut an open message opens the next. A message is discarded as
incomplete where 1 ms has passed since its start byte or, the start byte being no command of its own, since the
assembler was last emptied, and before that MESSAGE_INCOMPLETE changes nothing (the model's choices, log entries 4 and
17). Times are those of the starts of sample periods (log entry 8). -/
def Obligations.SurfaceLinksComeAndGo : Prop :=
  ∀ (i : Fin 4) (s : State), InPeriod s →
    let f := s.surfaces[i]
    let sets (c : Instr) (f' : Surface) : Prop := exec c s = .next { s with surfaces := s.surfaces.set i f' }
    (∀ address model,
      exec (.hello i address model) s = .next { s with
        surfaces := s.surfaces.set i { f with
          state := .online, model := some model, ackPending := true, silenceStart := s.clock.time
          assembler := [], assemblerStart := s.clock.time
          counters := { f.counters with
            received := bump32 f.counters.received, hellos := bump32 f.counters.hellos } }
        mgmt := afterAlarms
          (if f.state = .online ∧ f.model = some model then []
          else [.surfaceState i .online (some model) none s.gen.sampleCounter]) s.mgmt }) ∧
    (f.state = .online → sets (.keepalive i) { f with
      silenceStart := s.clock.time, assembler := [], assemblerStart := s.clock.time
      counters := { f.counters with received := bump32 f.counters.received } }) ∧
    (f.state ≠ .online → sets (.keepalive i) { f with
      assembler := [], assemblerStart := s.clock.time
      counters := { f.counters with
        received := bump32 f.counters.received, discarded := bump32 f.counters.discarded } }) ∧
    (∀ start, sets (.malformedMessage i (.restarted start)) { f with
      assembler := [start], assemblerStart := s.clock.time
      counters := { f.counters with malformed := bump32 f.counters.malformed } }) ∧
    (∀ cause, cause = .framing ∨ cause = .stray ∨ cause = .badKind → sets (.malformedMessage i cause) { f with
      assembler := [], assemblerStart := s.clock.time
      counters := { f.counters with malformed := bump32 f.counters.malformed } }) ∧
    (f.assemblerStart + timePerMs ≤ s.clock.time + s.clock.periodTime → sets (.messageIncomplete i) { f with
      assembler := [], assemblerStart := s.clock.time
      counters := { f.counters with malformed := bump32 f.counters.malformed } }) ∧
    (s.clock.time + s.clock.periodTime < f.assemblerStart + timePerMs → exec (.messageIncomplete i) s = .next s)

/-- R123, R127, R128, R142, R143, R144: POSITION, TOUCH, PRESS and TURN. The value handed on fits its range, and a clamped
POSITION or TURN is counted. A link that is not ONLINE discards the message. In SETUP it becomes a SURFACE_EVENT with the
label 0xFFFF. In OPERATE it goes to the rules: without a winner it is unmatched; a winner counts, and a POSITION within
its deadband stops there; otherwise the winner's actions run in list order (see `ActionsActOnTheirMessage`), a POSITION
being remembered first. The winner is the first rule of the link's block, in ascending number, that is valid, holds the
message's kind and agrees with its address under the mask; there is none exactly when no rule of the block does. The
assembler is empty after a message and its time and the silence timer's are those of the start of the sample period (log
entries 8 and 17). -/
def Obligations.SurfaceMessagesReachTheRules : Prop :=
  (∀ (i : Fin 4) (kind : MessageKind) (address : Nat) (raw : Int) (s : State), InPeriod s →
    (kind ≠ .turn → 0 ≤ raw) →
    let c : Instr := match kind with
      | .position => .position i address raw.toNat
      | .touch => .touch i address raw.toNat
      | .press => .press i address raw.toNat
      | .turn => .turn i address raw
    let value : Int := match kind with
      | .position => min raw 1023
      | .touch => if raw = 0 then 0 else 1
      | .press => if raw = 0 then 0 else 1
      | .turn => max (-64) (min 63 raw)
    let m : InMessage := ⟨i, kind, address, value⟩
    let f := s.surfaces[i]
    let clamped := if (kind = .position ∨ kind = .turn) ∧ value ≠ raw then bump32 f.counters.clamped else f.counters.clamped
    let counted := { f.counters with received := bump32 f.counters.received, clamped := clamped }
    let heard : State := { s with surfaces := s.surfaces.set i { f with
      silenceStart := s.clock.time, assembler := [], assemblerStart := s.clock.time, counters := counted } }
    (f.state ≠ .online →
      exec c s = .next { s with surfaces := s.surfaces.set i { f with
        assembler := [], assemblerStart := s.clock.time, counters := { counted with discarded := bump32 f.counters.discarded } } }) ∧
    (f.state = .online → s.device.mode = .setup →
      exec c s = .next (postEvent ⟨i, kind, address, value, 0xFFFF, stampNow s⟩ heard)) ∧
    (f.state = .online → s.device.mode = .operate → winner s.rules m = none →
      exec c s = .next { heard with surfaces := s.surfaces.set i { f with
        silenceStart := s.clock.time, assembler := [], assemblerStart := s.clock.time
        counters := { counted with unmatched := bump32 f.counters.unmatched } } }) ∧
    (∀ n, f.state = .online → s.device.mode = .operate → winner s.rules m = some n →
      let rule := s.rules.rules[n]
      let matched := { s.rules.counters with matched := bump32 s.rules.counters.matched }
      let stops := kind = .position ∧ ∃ p, rule.lastPassed = some p ∧ (value - p).natAbs < rule.deadband ∧ value ≠ 0 ∧
        value ≠ 1023
      (stops → exec c s = .next { heard with rules := { s.rules with
        counters := { matched with deadbandDrops := bump32 s.rules.counters.deadbandDrops } } }) ∧
      (¬ stops →
        let remembered : Rule := if kind = .position then { rule with lastPassed := some value.toNat } else rule
        exec c s = .next (rule.actions.foldl (fun t a => runAction m a t)
          { heard with rules := { s.rules with rules := s.rules.rules.set n remembered, counters := matched } })))) ∧
  ∀ (u : RuleUnit) (m : InMessage), u.blocks[m.link].start + u.blocks[m.link].count ≤ 512 →
    let matching (n : Nat) (r : Rule) : Prop :=
      u.blocks[m.link].start ≤ n ∧ n < u.blocks[m.link].start + u.blocks[m.link].count ∧
        r.valid = true ∧ m.kind ∈ r.kinds ∧ m.address &&& r.mask = r.address &&& r.mask
    (∀ n : Fin 512, winner u m = some n ↔
      matching n.val u.rules[n] ∧ ∀ k : Fin 512, k < n → ¬ matching k.val u.rules[k]) ∧
    (winner u m = none ↔ ∀ n : Fin 512, ¬ matching n.val u.rules[n])

/-- R129, R144 to R150, R158, R159, R175: what one action does with the message that won. FORWARD, within a sample
period, queues a SURFACE_EVENT with the stamp of that period, or counts it lost. DRIVE_GAIN and NUDGE_GAIN write the set
gain of a record that no other link holds, TOGGLE_MUTE inverts the mute of any, a touch takes or releases the hold; a
restart follows where the effective target changed. A pair that is not in the table is a missed binding, another link's
hold a held skip. ECHO offers an update. An update offered, by ECHO or for a meter point (R167), replaces the value of
an entry of its kind and address in place, age kept, or is appended with age 0, or at 32 other keys is dropped and
counted; for a link that is not ONLINE nothing happens. A kind that does not apply is skipped. -/
def Obligations.ActionsActOnTheirMessage : Prop :=
  ∀ (m : InMessage) (s : State),
    let missed : State := { s with rules := { s.rules with
      counters := { s.rules.counters with missedBindings := bump32 s.rules.counters.missedBindings } } }
    let heldSkip : State := { s with rules := { s.rules with
      counters := { s.rules.counters with heldSkips := bump32 s.rules.counters.heldSkips } } }
    let writes (src dst : Slot) (f : Crosspoint → Crosspoint) : State :=
      { s with engine := { s.engine with table := updateRecord src dst f s.engine.table } }
    let free (r : Crosspoint) : Prop := r.owner = none ∨ r.owner = some m.link
    (∀ label, s.boundary.taken = false → s.mgmt.events.length < 128 → runAction m (.forward label) s =
      { s with mgmt := { s.mgmt with
        events := s.mgmt.events ++ [⟨m.link, m.kind, m.address, m.value, label, s.gen.sampleCounter⟩]
        counters := { s.mgmt.counters with eventsQueued := bump32 s.mgmt.counters.eventsQueued } } }) ∧
    (∀ label, 128 ≤ s.mgmt.events.length → runAction m (.forward label) s =
      { s with mgmt := { s.mgmt with
        pendingLoss := bump 65535 s.mgmt.pendingLoss
        counters := { s.mgmt.counters with eventsLost := bump32 s.mgmt.counters.eventsLost } } }) ∧
    (∀ (src dst : Slot) (code : RampCode) (low high : Int) (p : Nat), m.kind = .position → m.value = p → p ≤ 1023 →
      s.rules.law[p / 8]? = some low → s.rules.law[p / 8 + 1]? = some high →
      (findRecord s.engine.table src dst = none → runAction m (.driveGain src dst code) s = missed) ∧
      (∀ r, findRecord s.engine.table src dst = some r →
        (free r → runAction m (.driveGain src dst code) s = writes src dst fun q =>
          restartedFrom q code { q with setGain := low + ((high - low) * (p % 8 : Nat)).tdiv 8 }) ∧
        (¬ free r → runAction m (.driveGain src dst code) s = heldSkip))) ∧
    (∀ (src dst : Slot) (code : RampCode), m.kind = .touch →
      (findRecord s.engine.table src dst = none → runAction m (.driveGain src dst code) s = missed) ∧
      (∀ r, findRecord s.engine.table src dst = some r →
        (m.value = 1 → r.owner = none → runAction m (.driveGain src dst code) s = writes src dst fun q =>
          { q with owner := some m.link, automation := none }) ∧
        (m.value = 1 → r.owner = some m.link → runAction m (.driveGain src dst code) s = s) ∧
        (m.value = 1 → ¬ free r → runAction m (.driveGain src dst code) s = heldSkip) ∧
        (m.value = 0 → r.owner = some m.link → runAction m (.driveGain src dst code) s = writes src dst fun q =>
          match q.automation with
          | none => { q with owner := none }
          | some (gain, code) => restartedFrom q code { q with setGain := gain, owner := none, automation := none }) ∧
        (m.value = 0 → r.owner ≠ some m.link → runAction m (.driveGain src dst code) s = s))) ∧
    (∀ (src dst : Slot) (step : Nat), m.kind = .turn →
      (findRecord s.engine.table src dst = none → runAction m (.nudgeGain src dst step) s = missed) ∧
      (∀ r, findRecord s.engine.table src dst = some r →
        (free r → runAction m (.nudgeGain src dst step) s = writes src dst fun q =>
          restartedFrom q q.ramp
            { q with setGain := max (-8388608) (min 8388607 (q.setGain + m.value * step)) }) ∧
        (¬ free r → runAction m (.nudgeGain src dst step) s = heldSkip))) ∧
    (∀ (src dst : Slot), m.kind = .press → m.value = 1 →
      (findRecord s.engine.table src dst = none → runAction m (.toggleMute src dst) s = missed) ∧
      ((findRecord s.engine.table src dst).isSome → runAction m (.toggleMute src dst) s = writes src dst fun q =>
        restartedFrom q q.ramp { q with muted := !q.muted })) ∧
    (∀ (link : Fin 4) (address : Nat), m.kind = .position ∨ m.kind = .press →
      runAction m (.echo link address) s =
        offerUpdate link (if m.kind = .position then .setPosition else .lamp) address m.value.toNat s) ∧
    (∀ (link : Fin 4) (kind : UpdateKind) (address value : Nat),
      let f := s.surfaces[link]
      let leaves (f' : Surface) : Prop :=
        offerUpdate link kind address value s = { s with surfaces := s.surfaces.set link f' }
      let same (u : Update) : Prop := u.kind = kind ∧ u.address = address
      (f.state ≠ .online → offerUpdate link kind address value s = s) ∧
      (f.state = .online → (∃ u ∈ f.updates, same u) → leaves { f with
        updates := f.updates.map fun u => if u.kind = kind ∧ u.address = address then { u with value := value } else u }) ∧
      (f.state = .online → (∀ u ∈ f.updates, ¬ same u) → f.updates.length < 32 →
        leaves { f with updates := f.updates ++ [⟨kind, address, value, 0⟩] }) ∧
      (f.state = .online → (∀ u ∈ f.updates, ¬ same u) → 32 ≤ f.updates.length →
        leaves { f with counters := { f.counters with overflow := bump32 f.counters.overflow } })) ∧
    (∀ a, (match a with
      | .forward _ => False
      | .driveGain _ _ _ => m.kind = .press ∨ m.kind = .turn
      | .nudgeGain _ _ _ => m.kind ≠ .turn
      | .toggleMute _ _ => m.kind ≠ .press ∨ m.value ≠ 1
      | .echo _ _ => m.kind = .touch ∨ m.kind = .turn) → runAction m a s = s)

/-- R126, R130, R133, R152, R153: SILENCE_TIMER_EXPIRY and SEND_INTERVAL_EXPIRY. A link ONLINE and silent for 500 ms
releases its holds, each automation gain becoming the set gain, empties its update set and is LOST, with an alarm that
carries the number released. At a send interval an ONLINE link sends a pending HELLO_ACK, or the first entry that has
waited 8 expiries, or the first SET_POSITION, LAMP or METER; the entries that stay grow older, at an expiry that sends a
HELLO_ACK too (log entry 31); the timer restarts with the stored interval. Times are those of sample periods (log entry
8), and neither event changes anything before its time (log entry 4). -/
def Obligations.SurfaceTimers : Prop :=
  ∀ (i : Fin 4) (s : State), InPeriod s →
    let f := s.surfaces[i]
    let now := s.clock.time + s.clock.periodTime
    let sent (f' : Surface) : Prop := exec (.sendIntervalExpiry i) s = .next { s with surfaces := s.surfaces.set i { f' with
      intervalStart := f.intervalStart + f.interval * timePerMs, interval := f.stored } }
    let older (set : List Update) : List Update := set.map fun u => { u with age := bump 255 u.age }
    let without (u : Update) : List Update := f.updates.filter fun v => !decide (v.kind = u.kind ∧ v.address = u.address)
    let counted := { f.counters with sent := bump32 f.counters.sent }
    let due := f.intervalStart + f.interval * timePerMs ≤ now
    let first (p : Update → Prop) (u : Update) : Prop :=
      ∃ before after, f.updates = before ++ u :: after ∧ p u ∧ ∀ v ∈ before, ¬ p v
    (f.state = .online → f.silenceStart + 500 * timePerMs ≤ now →
      let released (r : Crosspoint) : Crosspoint :=
        if r.owner = some i then
          match r.automation with
          | none => { r with owner := none }
          | some (gain, code) => restartedFrom r code { r with setGain := gain, owner := none, automation := none }
        else r
      exec (.silenceTimerExpiry i) s = .next { s with
        engine := { s.engine with table := s.engine.table.map released }
        surfaces := s.surfaces.set i { f with
          state := .lost, updates := [], ackPending := false
          counters := { f.counters with losses := bump32 f.counters.losses } }
        mgmt := afterAlarms [.surfaceState i .lost f.model
          (some (s.engine.table.filter fun r => decide (r.owner = some i)).length) s.gen.sampleCounter] s.mgmt }) ∧
    ((f.state ≠ .online ∨ now < f.silenceStart + 500 * timePerMs) → exec (.silenceTimerExpiry i) s = .next s) ∧
    (due → f.state = .online → f.ackPending = true → sent
      { f with ackPending := false, updates := older f.updates, lastSent := some .helloAck, counters := counted }) ∧
    (∀ u, due → f.state = .online → f.ackPending = false →
      (first (fun v => 8 ≤ v.age) u ∨
        (∀ v ∈ f.updates, v.age < 8) ∧
          (first (fun v => v.kind = .setPosition) u ∨
            (∀ v ∈ f.updates, v.kind ≠ .setPosition) ∧
              (first (fun v => v.kind = .lamp) u ∨
                (∀ v ∈ f.updates, v.kind = .meter) ∧ f.updates.head? = some u))) →
      sent { f with
        updates := older (without u), lastSent := some (.update u.kind u.address u.value), counters := counted }) ∧
    (due → (f.state ≠ .online ∨ f.ackPending = false ∧ f.updates = []) → sent f) ∧
    (¬ due → exec (.sendIntervalExpiry i) s = .next s)

/-! ### Meter reports -/

/-- R164 to R167, R176: METER_REPORT and METER_PROMOTION. Where a report is due and a point is active, a report of every
active point with its peak and clip-seen flag is placed in an empty slot, merged with one of the same configuration, or
put in place of one of an older; bound points offer the segment of their peak in point order (what an offer does is in
`ActionsActOnTheirMessage`); every peak and flag starts again. With no active point only the restart happens. A report
that has waited 8 boundaries is promoted. METER_REPORT changes nothing where no report is due (the model's choice, log
entry 4). -/
def Obligations.MeterReportsAreHandedOn : Prop :=
  ∀ s : State, s.powered = true →
    let active := ((List.range 64).zip s.meter.points.toList).filter fun p => p.2.active
    let report : MeterReport :=
      { config := s.meter.config, first := s.meter.coverStart, last := (s.gen.blockNumber + 65535) % 65536, merge := 1
        setupSeen := s.meter.setupSeen, points := active.map fun p => ⟨p.1, p.2.peak, p.2.clipSeen⟩ }
    (s.boundary.report = true →
      ∃ t, exec .meterReport s = .next t ∧ t.boundary = { s.boundary with report := false } ∧
        t.meter.count = 0 ∧ t.meter.setupSeen = false ∧ t.meter.coverStart = s.gen.blockNumber ∧
        t.meter.config = s.meter.config ∧ t.meter.interval = s.meter.interval ∧
        t.meter.thresholds = s.meter.thresholds ∧
        (∀ n : Fin 64, t.meter.points[n] = { s.meter.points[n] with peak := 0, clipSeen := false }) ∧
        t.engine = s.engine ∧ t.links = s.links ∧ t.rules = s.rules ∧ t.device = s.device ∧ t.uplink = s.uplink ∧
        t.gen = s.gen ∧ t.clock = s.clock ∧ t.mgmt = { s.mgmt with meterSlot := t.mgmt.meterSlot } ∧
        (active = [] → t.mgmt.meterSlot = s.mgmt.meterSlot ∧ t.surfaces = s.surfaces) ∧
        (active ≠ [] → s.mgmt.meterSlot = none → t.mgmt.meterSlot = some ⟨report, 0, false, false⟩) ∧
        (∀ old, active ≠ [] → s.mgmt.meterSlot = some old → old.stale = true →
          t.mgmt.meterSlot = some { old with report := report, stale := false }) ∧
        (∀ old, active ≠ [] → s.mgmt.meterSlot = some old → old.stale = false →
          t.mgmt.meterSlot = some { old with report := { old.report with
            last := report.last, merge := bumpBy 255 1 old.report.merge
            setupSeen := old.report.setupSeen || report.setupSeen
            points := List.zipWith (fun x y =>
              { x with peak := max x.peak y.peak, clipSeen := x.clipSeen || y.clipSeen })
              old.report.points report.points } }) ∧
        t.surfaces = (active.foldl (fun u p => match p.2.binding with
          | some (link, address) =>
            offerUpdate link .meter address (s.meter.thresholds.toList.filter (· ≤ p.2.peak)).length u
          | none => u) s).surfaces) ∧
    (s.boundary.report = false → exec .meterReport s = .next s) ∧
    (exec .meterPromotion s = .next { s with mgmt := { s.mgmt with
      meterSlot := s.mgmt.meterSlot.map fun r => { r with promoted := r.promoted || decide (8 ≤ r.age) } } })
end

