-- ==== Sys2Proof/Laws/State.lean ====
section
/-! SUPPORT. The field lemmas of State's block updates: one for each field and each update, and the access lemmas of the
vector operations they are built on. -/

namespace Sys2Proof

/-! ### Vectors -/

@[simp] theorem tabulate_getElem {α : Type} (n : Nat) (f : Nat → α) (i : Nat) (h : i < n) : (tabulate n f)[i] = f i := by
  simp [tabulate, Vector.getElem_mk]

@[simp] theorem mapEntries_getElem {α β : Type} {n : Nat} (f : α → β) (v : Vector α n) (i : Nat) (h : i < n) :
    (mapEntries f v)[i] = f v[i] := by
  simp [mapEntries]

theorem modifyEntry_getElem {α : Type} {n : Nat} (v : Vector α n) (i : Fin n) (f : α → α) (j : Nat) (h : j < n) :
    (modifyEntry v i f)[j] = if i.val = j then f v[j] else v[j] := by
  unfold modifyEntry
  rw [Vector.getElem_set]
  split
  · next e => subst e; rfl
  · rfl

/-- The entry an update names, after it. -/
@[simp] theorem modifyEntry_same {α : Type} {n : Nat} (v : Vector α n) (i : Fin n) (f : α → α) :
    (modifyEntry v i f)[i.val] = f v[i.val] := by
  simp [modifyEntry_getElem]

/-- Every other entry, after it. -/
theorem modifyEntry_other {α : Type} {n : Nat} (v : Vector α n) (i j : Fin n) (f : α → α) (h : i ≠ j) :
    (modifyEntry v i f)[j] = v[j] := by
  have : i.val ≠ j.val := fun e => h (Fin.ext e)
  simp [Fin.getElem_fin, modifyEntry_getElem, this]

/-- Updates of one entry one after the other are one update. -/
theorem modifyEntry_twice {α : Type} {n : Nat} (v : Vector α n) (i : Fin n) (f g : α → α) :
    modifyEntry (modifyEntry v i f) i g = modifyEntry v i (g ∘ f) := by
  apply Vector.ext
  intro j h
  simp only [modifyEntry_getElem]
  split <;> rfl

namespace Machine

/-! ### The state after reset, block by block -/

@[simp] theorem State.reset_pending : State.reset.pending = [] := rfl
@[simp] theorem State.reset_powered : State.reset.powered = true := rfl
@[simp] theorem State.reset_free : State.reset.free = 0 := rfl
@[simp] theorem State.reset_gen : State.reset.gen = FrameGen.reset := rfl
@[simp] theorem State.reset_boundary : State.reset.boundary = Boundary.none := rfl
@[simp] theorem State.reset_clock : State.reset.clock = ClockUnit.reset := rfl
@[simp] theorem State.reset_engine : State.reset.engine = Engine.reset := rfl
@[simp] theorem State.reset_rules : State.reset.rules = RuleUnit.reset := rfl
@[simp] theorem State.reset_device : State.reset.device = Device.reset := rfl
@[simp] theorem State.reset_link (i : Nat) (h : i < 8) : State.reset.links[i] = Link.reset :=
  Vector.getElem_replicate _
@[simp] theorem State.reset_surface (i : Nat) (h : i < 4) : State.reset.surfaces[i] = Surface.reset :=
  Vector.getElem_replicate _
@[simp] theorem State.reset_ring : State.reset.uplink.ring = [] := rfl
@[simp] theorem State.reset_nextPlay : State.reset.uplink.nextPlay = 1 := rfl
@[simp] theorem State.reset_uplinkState : State.reset.uplink.state = .up := rfl
@[simp] theorem State.reset_pendingConfig : State.reset.uplink.pendingConfig = none := rfl
@[simp] theorem State.reset_requests : State.reset.mgmt.requests = [] := rfl
@[simp] theorem State.reset_replies : State.reset.mgmt.replies = [] := rfl
@[simp] theorem State.reset_alarms : State.reset.mgmt.alarms = [] := rfl
@[simp] theorem State.reset_events : State.reset.mgmt.events = [] := rfl
@[simp] theorem State.reset_lane : State.reset.mgmt.lane = .free := rfl
@[simp] theorem Engine.reset_table : Engine.reset.table = [] := rfl
@[simp] theorem Engine.reset_edits : Engine.reset.edits = [] := rfl
@[simp] theorem Engine.reset_commit : Engine.reset.commit = none := rfl

/-! ### One block of State at a time -/

@[simp] theorem State.onGen_pending (f : FrameGen → FrameGen) (s : State) : (s.onGen f).pending = s.pending := rfl
@[simp] theorem State.onGen_powered (f : FrameGen → FrameGen) (s : State) : (s.onGen f).powered = s.powered := rfl
@[simp] theorem State.onGen_free (f : FrameGen → FrameGen) (s : State) : (s.onGen f).free = s.free := rfl
@[simp] theorem State.onGen_gen (f : FrameGen → FrameGen) (s : State) : (s.onGen f).gen = f s.gen := rfl
@[simp] theorem State.onGen_boundary (f : FrameGen → FrameGen) (s : State) : (s.onGen f).boundary = s.boundary := rfl
@[simp] theorem State.onGen_clock (f : FrameGen → FrameGen) (s : State) : (s.onGen f).clock = s.clock := rfl
@[simp] theorem State.onGen_links (f : FrameGen → FrameGen) (s : State) : (s.onGen f).links = s.links := rfl
@[simp] theorem State.onGen_uplink (f : FrameGen → FrameGen) (s : State) : (s.onGen f).uplink = s.uplink := rfl
@[simp] theorem State.onGen_engine (f : FrameGen → FrameGen) (s : State) : (s.onGen f).engine = s.engine := rfl
@[simp] theorem State.onGen_surfaces (f : FrameGen → FrameGen) (s : State) : (s.onGen f).surfaces = s.surfaces := rfl
@[simp] theorem State.onGen_rules (f : FrameGen → FrameGen) (s : State) : (s.onGen f).rules = s.rules := rfl
@[simp] theorem State.onGen_meter (f : FrameGen → FrameGen) (s : State) : (s.onGen f).meter = s.meter := rfl
@[simp] theorem State.onGen_mgmt (f : FrameGen → FrameGen) (s : State) : (s.onGen f).mgmt = s.mgmt := rfl
@[simp] theorem State.onGen_device (f : FrameGen → FrameGen) (s : State) : (s.onGen f).device = s.device := rfl

@[simp] theorem State.onBoundary_pending (f : Boundary → Boundary) (s : State) : (s.onBoundary f).pending = s.pending := rfl
@[simp] theorem State.onBoundary_powered (f : Boundary → Boundary) (s : State) : (s.onBoundary f).powered = s.powered := rfl
@[simp] theorem State.onBoundary_free (f : Boundary → Boundary) (s : State) : (s.onBoundary f).free = s.free := rfl
@[simp] theorem State.onBoundary_gen (f : Boundary → Boundary) (s : State) : (s.onBoundary f).gen = s.gen := rfl
@[simp] theorem State.onBoundary_boundary (f : Boundary → Boundary) (s : State) : (s.onBoundary f).boundary = f s.boundary := rfl
@[simp] theorem State.onBoundary_clock (f : Boundary → Boundary) (s : State) : (s.onBoundary f).clock = s.clock := rfl
@[simp] theorem State.onBoundary_links (f : Boundary → Boundary) (s : State) : (s.onBoundary f).links = s.links := rfl
@[simp] theorem State.onBoundary_uplink (f : Boundary → Boundary) (s : State) : (s.onBoundary f).uplink = s.uplink := rfl
@[simp] theorem State.onBoundary_engine (f : Boundary → Boundary) (s : State) : (s.onBoundary f).engine = s.engine := rfl
@[simp] theorem State.onBoundary_surfaces (f : Boundary → Boundary) (s : State) : (s.onBoundary f).surfaces = s.surfaces := rfl
@[simp] theorem State.onBoundary_rules (f : Boundary → Boundary) (s : State) : (s.onBoundary f).rules = s.rules := rfl
@[simp] theorem State.onBoundary_meter (f : Boundary → Boundary) (s : State) : (s.onBoundary f).meter = s.meter := rfl
@[simp] theorem State.onBoundary_mgmt (f : Boundary → Boundary) (s : State) : (s.onBoundary f).mgmt = s.mgmt := rfl
@[simp] theorem State.onBoundary_device (f : Boundary → Boundary) (s : State) : (s.onBoundary f).device = s.device := rfl

@[simp] theorem State.onClock_pending (f : ClockUnit → ClockUnit) (s : State) : (s.onClock f).pending = s.pending := rfl
@[simp] theorem State.onClock_powered (f : ClockUnit → ClockUnit) (s : State) : (s.onClock f).powered = s.powered := rfl
@[simp] theorem State.onClock_free (f : ClockUnit → ClockUnit) (s : State) : (s.onClock f).free = s.free := rfl
@[simp] theorem State.onClock_gen (f : ClockUnit → ClockUnit) (s : State) : (s.onClock f).gen = s.gen := rfl
@[simp] theorem State.onClock_boundary (f : ClockUnit → ClockUnit) (s : State) : (s.onClock f).boundary = s.boundary := rfl
@[simp] theorem State.onClock_clock (f : ClockUnit → ClockUnit) (s : State) : (s.onClock f).clock = f s.clock := rfl
@[simp] theorem State.onClock_links (f : ClockUnit → ClockUnit) (s : State) : (s.onClock f).links = s.links := rfl
@[simp] theorem State.onClock_uplink (f : ClockUnit → ClockUnit) (s : State) : (s.onClock f).uplink = s.uplink := rfl
@[simp] theorem State.onClock_engine (f : ClockUnit → ClockUnit) (s : State) : (s.onClock f).engine = s.engine := rfl
@[simp] theorem State.onClock_surfaces (f : ClockUnit → ClockUnit) (s : State) : (s.onClock f).surfaces = s.surfaces := rfl
@[simp] theorem State.onClock_rules (f : ClockUnit → ClockUnit) (s : State) : (s.onClock f).rules = s.rules := rfl
@[simp] theorem State.onClock_meter (f : ClockUnit → ClockUnit) (s : State) : (s.onClock f).meter = s.meter := rfl
@[simp] theorem State.onClock_mgmt (f : ClockUnit → ClockUnit) (s : State) : (s.onClock f).mgmt = s.mgmt := rfl
@[simp] theorem State.onClock_device (f : ClockUnit → ClockUnit) (s : State) : (s.onClock f).device = s.device := rfl

@[simp] theorem State.onLink_pending (i : Fin 8) (f : Link → Link) (s : State) : (s.onLink i f).pending = s.pending := rfl
@[simp] theorem State.onLink_powered (i : Fin 8) (f : Link → Link) (s : State) : (s.onLink i f).powered = s.powered := rfl
@[simp] theorem State.onLink_free (i : Fin 8) (f : Link → Link) (s : State) : (s.onLink i f).free = s.free := rfl
@[simp] theorem State.onLink_gen (i : Fin 8) (f : Link → Link) (s : State) : (s.onLink i f).gen = s.gen := rfl
@[simp] theorem State.onLink_boundary (i : Fin 8) (f : Link → Link) (s : State) : (s.onLink i f).boundary = s.boundary := rfl
@[simp] theorem State.onLink_clock (i : Fin 8) (f : Link → Link) (s : State) : (s.onLink i f).clock = s.clock := rfl
@[simp] theorem State.onLink_links (i : Fin 8) (f : Link → Link) (s : State) : (s.onLink i f).links = modifyEntry s.links i f := rfl
@[simp] theorem State.onLink_uplink (i : Fin 8) (f : Link → Link) (s : State) : (s.onLink i f).uplink = s.uplink := rfl
@[simp] theorem State.onLink_engine (i : Fin 8) (f : Link → Link) (s : State) : (s.onLink i f).engine = s.engine := rfl
@[simp] theorem State.onLink_surfaces (i : Fin 8) (f : Link → Link) (s : State) : (s.onLink i f).surfaces = s.surfaces := rfl
@[simp] theorem State.onLink_rules (i : Fin 8) (f : Link → Link) (s : State) : (s.onLink i f).rules = s.rules := rfl
@[simp] theorem State.onLink_meter (i : Fin 8) (f : Link → Link) (s : State) : (s.onLink i f).meter = s.meter := rfl
@[simp] theorem State.onLink_mgmt (i : Fin 8) (f : Link → Link) (s : State) : (s.onLink i f).mgmt = s.mgmt := rfl
@[simp] theorem State.onLink_device (i : Fin 8) (f : Link → Link) (s : State) : (s.onLink i f).device = s.device := rfl

@[simp] theorem State.onUplink_pending (f : UplinkRx → UplinkRx) (s : State) : (s.onUplink f).pending = s.pending := rfl
@[simp] theorem State.onUplink_powered (f : UplinkRx → UplinkRx) (s : State) : (s.onUplink f).powered = s.powered := rfl
@[simp] theorem State.onUplink_free (f : UplinkRx → UplinkRx) (s : State) : (s.onUplink f).free = s.free := rfl
@[simp] theorem State.onUplink_gen (f : UplinkRx → UplinkRx) (s : State) : (s.onUplink f).gen = s.gen := rfl
@[simp] theorem State.onUplink_boundary (f : UplinkRx → UplinkRx) (s : State) : (s.onUplink f).boundary = s.boundary := rfl
@[simp] theorem State.onUplink_clock (f : UplinkRx → UplinkRx) (s : State) : (s.onUplink f).clock = s.clock := rfl
@[simp] theorem State.onUplink_links (f : UplinkRx → UplinkRx) (s : State) : (s.onUplink f).links = s.links := rfl
@[simp] theorem State.onUplink_uplink (f : UplinkRx → UplinkRx) (s : State) : (s.onUplink f).uplink = f s.uplink := rfl
@[simp] theorem State.onUplink_engine (f : UplinkRx → UplinkRx) (s : State) : (s.onUplink f).engine = s.engine := rfl
@[simp] theorem State.onUplink_surfaces (f : UplinkRx → UplinkRx) (s : State) : (s.onUplink f).surfaces = s.surfaces := rfl
@[simp] theorem State.onUplink_rules (f : UplinkRx → UplinkRx) (s : State) : (s.onUplink f).rules = s.rules := rfl
@[simp] theorem State.onUplink_meter (f : UplinkRx → UplinkRx) (s : State) : (s.onUplink f).meter = s.meter := rfl
@[simp] theorem State.onUplink_mgmt (f : UplinkRx → UplinkRx) (s : State) : (s.onUplink f).mgmt = s.mgmt := rfl
@[simp] theorem State.onUplink_device (f : UplinkRx → UplinkRx) (s : State) : (s.onUplink f).device = s.device := rfl

@[simp] theorem State.onEngine_pending (f : Engine → Engine) (s : State) : (s.onEngine f).pending = s.pending := rfl
@[simp] theorem State.onEngine_powered (f : Engine → Engine) (s : State) : (s.onEngine f).powered = s.powered := rfl
@[simp] theorem State.onEngine_free (f : Engine → Engine) (s : State) : (s.onEngine f).free = s.free := rfl
@[simp] theorem State.onEngine_gen (f : Engine → Engine) (s : State) : (s.onEngine f).gen = s.gen := rfl
@[simp] theorem State.onEngine_boundary (f : Engine → Engine) (s : State) : (s.onEngine f).boundary = s.boundary := rfl
@[simp] theorem State.onEngine_clock (f : Engine → Engine) (s : State) : (s.onEngine f).clock = s.clock := rfl
@[simp] theorem State.onEngine_links (f : Engine → Engine) (s : State) : (s.onEngine f).links = s.links := rfl
@[simp] theorem State.onEngine_uplink (f : Engine → Engine) (s : State) : (s.onEngine f).uplink = s.uplink := rfl
@[simp] theorem State.onEngine_engine (f : Engine → Engine) (s : State) : (s.onEngine f).engine = f s.engine := rfl
@[simp] theorem State.onEngine_surfaces (f : Engine → Engine) (s : State) : (s.onEngine f).surfaces = s.surfaces := rfl
@[simp] theorem State.onEngine_rules (f : Engine → Engine) (s : State) : (s.onEngine f).rules = s.rules := rfl
@[simp] theorem State.onEngine_meter (f : Engine → Engine) (s : State) : (s.onEngine f).meter = s.meter := rfl
@[simp] theorem State.onEngine_mgmt (f : Engine → Engine) (s : State) : (s.onEngine f).mgmt = s.mgmt := rfl
@[simp] theorem State.onEngine_device (f : Engine → Engine) (s : State) : (s.onEngine f).device = s.device := rfl

@[simp] theorem State.onSurface_pending (i : Fin 4) (f : Surface → Surface) (s : State) : (s.onSurface i f).pending = s.pending := rfl
@[simp] theorem State.onSurface_powered (i : Fin 4) (f : Surface → Surface) (s : State) : (s.onSurface i f).powered = s.powered := rfl
@[simp] theorem State.onSurface_free (i : Fin 4) (f : Surface → Surface) (s : State) : (s.onSurface i f).free = s.free := rfl
@[simp] theorem State.onSurface_gen (i : Fin 4) (f : Surface → Surface) (s : State) : (s.onSurface i f).gen = s.gen := rfl
@[simp] theorem State.onSurface_boundary (i : Fin 4) (f : Surface → Surface) (s : State) : (s.onSurface i f).boundary = s.boundary := rfl
@[simp] theorem State.onSurface_clock (i : Fin 4) (f : Surface → Surface) (s : State) : (s.onSurface i f).clock = s.clock := rfl
@[simp] theorem State.onSurface_links (i : Fin 4) (f : Surface → Surface) (s : State) : (s.onSurface i f).links = s.links := rfl
@[simp] theorem State.onSurface_uplink (i : Fin 4) (f : Surface → Surface) (s : State) : (s.onSurface i f).uplink = s.uplink := rfl
@[simp] theorem State.onSurface_engine (i : Fin 4) (f : Surface → Surface) (s : State) : (s.onSurface i f).engine = s.engine := rfl
@[simp] theorem State.onSurface_surfaces (i : Fin 4) (f : Surface → Surface) (s : State) : (s.onSurface i f).surfaces = modifyEntry s.surfaces i f := rfl
@[simp] theorem State.onSurface_rules (i : Fin 4) (f : Surface → Surface) (s : State) : (s.onSurface i f).rules = s.rules := rfl
@[simp] theorem State.onSurface_meter (i : Fin 4) (f : Surface → Surface) (s : State) : (s.onSurface i f).meter = s.meter := rfl
@[simp] theorem State.onSurface_mgmt (i : Fin 4) (f : Surface → Surface) (s : State) : (s.onSurface i f).mgmt = s.mgmt := rfl
@[simp] theorem State.onSurface_device (i : Fin 4) (f : Surface → Surface) (s : State) : (s.onSurface i f).device = s.device := rfl

@[simp] theorem State.onRules_pending (f : RuleUnit → RuleUnit) (s : State) : (s.onRules f).pending = s.pending := rfl
@[simp] theorem State.onRules_powered (f : RuleUnit → RuleUnit) (s : State) : (s.onRules f).powered = s.powered := rfl
@[simp] theorem State.onRules_free (f : RuleUnit → RuleUnit) (s : State) : (s.onRules f).free = s.free := rfl
@[simp] theorem State.onRules_gen (f : RuleUnit → RuleUnit) (s : State) : (s.onRules f).gen = s.gen := rfl
@[simp] theorem State.onRules_boundary (f : RuleUnit → RuleUnit) (s : State) : (s.onRules f).boundary = s.boundary := rfl
@[simp] theorem State.onRules_clock (f : RuleUnit → RuleUnit) (s : State) : (s.onRules f).clock = s.clock := rfl
@[simp] theorem State.onRules_links (f : RuleUnit → RuleUnit) (s : State) : (s.onRules f).links = s.links := rfl
@[simp] theorem State.onRules_uplink (f : RuleUnit → RuleUnit) (s : State) : (s.onRules f).uplink = s.uplink := rfl
@[simp] theorem State.onRules_engine (f : RuleUnit → RuleUnit) (s : State) : (s.onRules f).engine = s.engine := rfl
@[simp] theorem State.onRules_surfaces (f : RuleUnit → RuleUnit) (s : State) : (s.onRules f).surfaces = s.surfaces := rfl
@[simp] theorem State.onRules_rules (f : RuleUnit → RuleUnit) (s : State) : (s.onRules f).rules = f s.rules := rfl
@[simp] theorem State.onRules_meter (f : RuleUnit → RuleUnit) (s : State) : (s.onRules f).meter = s.meter := rfl
@[simp] theorem State.onRules_mgmt (f : RuleUnit → RuleUnit) (s : State) : (s.onRules f).mgmt = s.mgmt := rfl
@[simp] theorem State.onRules_device (f : RuleUnit → RuleUnit) (s : State) : (s.onRules f).device = s.device := rfl

@[simp] theorem State.onMeter_pending (f : MeterUnit → MeterUnit) (s : State) : (s.onMeter f).pending = s.pending := rfl
@[simp] theorem State.onMeter_powered (f : MeterUnit → MeterUnit) (s : State) : (s.onMeter f).powered = s.powered := rfl
@[simp] theorem State.onMeter_free (f : MeterUnit → MeterUnit) (s : State) : (s.onMeter f).free = s.free := rfl
@[simp] theorem State.onMeter_gen (f : MeterUnit → MeterUnit) (s : State) : (s.onMeter f).gen = s.gen := rfl
@[simp] theorem State.onMeter_boundary (f : MeterUnit → MeterUnit) (s : State) : (s.onMeter f).boundary = s.boundary := rfl
@[simp] theorem State.onMeter_clock (f : MeterUnit → MeterUnit) (s : State) : (s.onMeter f).clock = s.clock := rfl
@[simp] theorem State.onMeter_links (f : MeterUnit → MeterUnit) (s : State) : (s.onMeter f).links = s.links := rfl
@[simp] theorem State.onMeter_uplink (f : MeterUnit → MeterUnit) (s : State) : (s.onMeter f).uplink = s.uplink := rfl
@[simp] theorem State.onMeter_engine (f : MeterUnit → MeterUnit) (s : State) : (s.onMeter f).engine = s.engine := rfl
@[simp] theorem State.onMeter_surfaces (f : MeterUnit → MeterUnit) (s : State) : (s.onMeter f).surfaces = s.surfaces := rfl
@[simp] theorem State.onMeter_rules (f : MeterUnit → MeterUnit) (s : State) : (s.onMeter f).rules = s.rules := rfl
@[simp] theorem State.onMeter_meter (f : MeterUnit → MeterUnit) (s : State) : (s.onMeter f).meter = f s.meter := rfl
@[simp] theorem State.onMeter_mgmt (f : MeterUnit → MeterUnit) (s : State) : (s.onMeter f).mgmt = s.mgmt := rfl
@[simp] theorem State.onMeter_device (f : MeterUnit → MeterUnit) (s : State) : (s.onMeter f).device = s.device := rfl

@[simp] theorem State.onMgmt_pending (f : Management → Management) (s : State) : (s.onMgmt f).pending = s.pending := rfl
@[simp] theorem State.onMgmt_powered (f : Management → Management) (s : State) : (s.onMgmt f).powered = s.powered := rfl
@[simp] theorem State.onMgmt_free (f : Management → Management) (s : State) : (s.onMgmt f).free = s.free := rfl
@[simp] theorem State.onMgmt_gen (f : Management → Management) (s : State) : (s.onMgmt f).gen = s.gen := rfl
@[simp] theorem State.onMgmt_boundary (f : Management → Management) (s : State) : (s.onMgmt f).boundary = s.boundary := rfl
@[simp] theorem State.onMgmt_clock (f : Management → Management) (s : State) : (s.onMgmt f).clock = s.clock := rfl
@[simp] theorem State.onMgmt_links (f : Management → Management) (s : State) : (s.onMgmt f).links = s.links := rfl
@[simp] theorem State.onMgmt_uplink (f : Management → Management) (s : State) : (s.onMgmt f).uplink = s.uplink := rfl
@[simp] theorem State.onMgmt_engine (f : Management → Management) (s : State) : (s.onMgmt f).engine = s.engine := rfl
@[simp] theorem State.onMgmt_surfaces (f : Management → Management) (s : State) : (s.onMgmt f).surfaces = s.surfaces := rfl
@[simp] theorem State.onMgmt_rules (f : Management → Management) (s : State) : (s.onMgmt f).rules = s.rules := rfl
@[simp] theorem State.onMgmt_meter (f : Management → Management) (s : State) : (s.onMgmt f).meter = s.meter := rfl
@[simp] theorem State.onMgmt_mgmt (f : Management → Management) (s : State) : (s.onMgmt f).mgmt = f s.mgmt := rfl
@[simp] theorem State.onMgmt_device (f : Management → Management) (s : State) : (s.onMgmt f).device = s.device := rfl

@[simp] theorem State.onDevice_pending (f : Device → Device) (s : State) : (s.onDevice f).pending = s.pending := rfl
@[simp] theorem State.onDevice_powered (f : Device → Device) (s : State) : (s.onDevice f).powered = s.powered := rfl
@[simp] theorem State.onDevice_free (f : Device → Device) (s : State) : (s.onDevice f).free = s.free := rfl
@[simp] theorem State.onDevice_gen (f : Device → Device) (s : State) : (s.onDevice f).gen = s.gen := rfl
@[simp] theorem State.onDevice_boundary (f : Device → Device) (s : State) : (s.onDevice f).boundary = s.boundary := rfl
@[simp] theorem State.onDevice_clock (f : Device → Device) (s : State) : (s.onDevice f).clock = s.clock := rfl
@[simp] theorem State.onDevice_links (f : Device → Device) (s : State) : (s.onDevice f).links = s.links := rfl
@[simp] theorem State.onDevice_uplink (f : Device → Device) (s : State) : (s.onDevice f).uplink = s.uplink := rfl
@[simp] theorem State.onDevice_engine (f : Device → Device) (s : State) : (s.onDevice f).engine = s.engine := rfl
@[simp] theorem State.onDevice_surfaces (f : Device → Device) (s : State) : (s.onDevice f).surfaces = s.surfaces := rfl
@[simp] theorem State.onDevice_rules (f : Device → Device) (s : State) : (s.onDevice f).rules = s.rules := rfl
@[simp] theorem State.onDevice_meter (f : Device → Device) (s : State) : (s.onDevice f).meter = s.meter := rfl
@[simp] theorem State.onDevice_mgmt (f : Device → Device) (s : State) : (s.onDevice f).mgmt = s.mgmt := rfl
@[simp] theorem State.onDevice_device (f : Device → Device) (s : State) : (s.onDevice f).device = f s.device := rfl

end Machine

end Sys2Proof
end

