-- ==== Sys2Proof/Laws/Frames.lean ====
section
/-! SUPPORT. What an operation can touch: for each operation of the blocks, the parts of State outside which it changes
nothing. A lemma `<operation>_touches` gives, for any part that its list does not name, that the part is as it was. -/

namespace Sys2Proof.Machine

/-- The parts of State that an operation may change. No operation changes the queue of commands. -/
inductive Part where
  | free
  | gen
  | boundary
  | clock
  | links
  | uplink
  | engine
  | surfaces
  | rules
  | meter
  | mgmt
  | device
deriving DecidableEq, Repr

/-- Outside the listed parts, `t` is `s`. -/
structure Touches (parts : List Part) (s t : State) : Prop where
  pending : t.pending = s.pending
  powered : t.powered = s.powered
  free : Part.free ∉ parts → t.free = s.free
  gen : Part.gen ∉ parts → t.gen = s.gen
  boundary : Part.boundary ∉ parts → t.boundary = s.boundary
  clock : Part.clock ∉ parts → t.clock = s.clock
  links : Part.links ∉ parts → t.links = s.links
  uplink : Part.uplink ∉ parts → t.uplink = s.uplink
  engine : Part.engine ∉ parts → t.engine = s.engine
  surfaces : Part.surfaces ∉ parts → t.surfaces = s.surfaces
  rules : Part.rules ∉ parts → t.rules = s.rules
  meter : Part.meter ∉ parts → t.meter = s.meter
  mgmt : Part.mgmt ∉ parts → t.mgmt = s.mgmt
  device : Part.device ∉ parts → t.device = s.device

theorem Touches.refl (parts : List Part) (s : State) : Touches parts s s := by
  constructor <;> intros <;> rfl

theorem Touches.trans {parts : List Part} {s t u : State} (h : Touches parts s t) (k : Touches parts t u) :
    Touches parts s u where
  pending := k.pending.trans h.pending
  powered := k.powered.trans h.powered
  free n := (k.free n).trans (h.free n)
  gen n := (k.gen n).trans (h.gen n)
  boundary n := (k.boundary n).trans (h.boundary n)
  clock n := (k.clock n).trans (h.clock n)
  links n := (k.links n).trans (h.links n)
  uplink n := (k.uplink n).trans (h.uplink n)
  engine n := (k.engine n).trans (h.engine n)
  surfaces n := (k.surfaces n).trans (h.surfaces n)
  rules n := (k.rules n).trans (h.rules n)
  meter n := (k.meter n).trans (h.meter n)
  mgmt n := (k.mgmt n).trans (h.mgmt n)
  device n := (k.device n).trans (h.device n)

theorem Touches.mono {a b : List Part} {s t : State} (h : Touches a s t) (sub : a ⊆ b) : Touches b s t where
  pending := h.pending
  powered := h.powered
  free n := h.free fun m => n (sub m)
  gen n := h.gen fun m => n (sub m)
  boundary n := h.boundary fun m => n (sub m)
  clock n := h.clock fun m => n (sub m)
  links n := h.links fun m => n (sub m)
  uplink n := h.uplink fun m => n (sub m)
  engine n := h.engine fun m => n (sub m)
  surfaces n := h.surfaces fun m => n (sub m)
  rules n := h.rules fun m => n (sub m)
  meter n := h.meter fun m => n (sub m)
  mgmt n := h.mgmt fun m => n (sub m)
  device n := h.device fun m => n (sub m)

/-- A fold of operations touches what each of them does. -/
theorem Touches.foldl {α : Type} {parts : List Part} {f : State → α → State} (h : ∀ s a, Touches parts s (f s a)) :
    ∀ (l : List α) (s : State), Touches parts s (l.foldl f s)
  | [], s => Touches.refl parts s
  | a :: l, s => (h s a).trans (Touches.foldl h l (f s a))

theorem onGen_touches (f) (s : State) : Touches [.gen] s (s.onGen f) := by
  constructor <;> simp [State.onGen]
theorem onBoundary_touches (f) (s : State) : Touches [.boundary] s (s.onBoundary f) := by
  constructor <;> simp [State.onBoundary]
theorem onClock_touches (f) (s : State) : Touches [.clock] s (s.onClock f) := by
  constructor <;> simp [State.onClock]
theorem onUplink_touches (f) (s : State) : Touches [.uplink] s (s.onUplink f) := by
  constructor <;> simp [State.onUplink]
theorem onEngine_touches (f) (s : State) : Touches [.engine] s (s.onEngine f) := by
  constructor <;> simp [State.onEngine]
theorem onRules_touches (f) (s : State) : Touches [.rules] s (s.onRules f) := by
  constructor <;> simp [State.onRules]
theorem onMeter_touches (f) (s : State) : Touches [.meter] s (s.onMeter f) := by
  constructor <;> simp [State.onMeter]
theorem onMgmt_touches (f) (s : State) : Touches [.mgmt] s (s.onMgmt f) := by
  constructor <;> simp [State.onMgmt]
theorem onDevice_touches (f) (s : State) : Touches [.device] s (s.onDevice f) := by
  constructor <;> simp [State.onDevice]
theorem onLink_touches (i : Fin 8) (f) (s : State) : Touches [.links] s (s.onLink i f) := by
  constructor <;> simp [State.onLink]
theorem onSurface_touches (i : Fin 4) (f) (s : State) : Touches [.surfaces] s (s.onSurface i f) := by
  constructor <;> simp [State.onSurface]

/-! ### The queues -/

theorem pushReply_touches (tag kind : Byte) (a : Answer) (s : State) : Touches [.mgmt] s (pushReply tag kind a s) :=
  onMgmt_touches _ s

theorem postAlarm_touches (a : Alarm) (s : State) : Touches [.mgmt] s (postAlarm a s) := onMgmt_touches _ s

theorem postEvent_touches (e : SurfaceEvent) (s : State) : Touches [.mgmt] s (postEvent e s) := onMgmt_touches _ s

theorem countRequest_touches (dropped : Bool) (s : State) : Touches [.mgmt] s (countRequest dropped s) :=
  onMgmt_touches _ s

theorem offerUpdate_touches (link : Fin 4) (kind : UpdateKind) (address value : Nat) (s : State) :
    Touches [.surfaces] s (offerUpdate link kind address value s) := by
  unfold offerUpdate
  split
  · exact onSurface_touches _ _ s
  · exact Touches.refl _ s

theorem loseUplink_touches (s : State) : Touches [.uplink, .mgmt] s (loseUplink s) := by
  unfold loseUplink
  split
  · exact ((onUplink_touches _ s).mono (by simp)).trans ((postAlarm_touches _ _).mono (by simp))
  · exact Touches.refl _ s

theorem hearFrame_touches (s : State) : Touches [.uplink, .mgmt] s (hearFrame s) := by
  have up (f) (t : State) : Touches [.uplink, .mgmt] t (t.onUplink f) := (onUplink_touches f t).mono (by simp)
  unfold hearFrame
  simp only
  split
  · exact (up _ _).trans (((postAlarm_touches _ _).mono (by simp)).trans (up _ _))
  · exact up _ _

/-! ### The clock unit -/

theorem postClockAlarm_touches (s : State) : Touches [.mgmt] s (postClockAlarm s) := postAlarm_touches _ s

theorem enterPullIn_touches (k : Candidate) (s : State) : Touches [.clock, .mgmt] s (enterPullIn k s) :=
  ((onClock_touches _ s).mono (by simp)).trans ((postClockAlarm_touches _).mono (by simp))

theorem enterHoldover_touches (s : State) : Touches [.clock, .mgmt] s (enterHoldover s) :=
  ((onClock_touches _ s).mono (by simp)).trans ((postClockAlarm_touches _).mono (by simp))

theorem expireHoldover_touches (s : State) : Touches [.clock, .mgmt] s (expireHoldover s) :=
  ((onClock_touches _ s).mono (by simp)).trans ((postClockAlarm_touches _).mono (by simp))

theorem enterLocked_touches (s : State) : Touches [.clock, .mgmt] s (enterLocked s) :=
  ((onClock_touches _ s).mono (by simp)).trans ((postClockAlarm_touches _).mono (by simp))

theorem look_touches (s : State) : Touches [.clock, .mgmt] s (look s) := by
  unfold look
  repeat' split
  all_goals first
    | exact Touches.refl _ s
    | exact enterPullIn_touches _ s

theorem completeWindow_touches (ref : Reference) (m : Nat) (s : State) :
    Touches [.clock, .mgmt] s (completeWindow ref m s) := by
  unfold completeWindow
  simp only
  split
  · exact ((onClock_touches _ s).mono (by simp)).trans (enterHoldover_touches _)
  · exact ((onClock_touches _ s).mono (by simp)).trans (look_touches _)

theorem measureEdge_touches (ref : Reference) (t : Nat) (s : State) :
    Touches [.clock, .mgmt] s (measureEdge ref t s) := by
  have clock (f) : Touches [.clock, .mgmt] s (s.onClock f) := (onClock_touches f s).mono (by simp)
  unfold measureEdge
  split
  · exact Touches.refl _ s
  · split
    · exact clock _
    · split
      · exact clock _
      · exact (clock _).trans (completeWindow_touches _ _ _)

theorem finishPullIn_touches (s : State) : Touches [.clock, .mgmt] s (finishPullIn s) := by
  unfold finishPullIn
  split
  · exact enterLocked_touches s
  · exact Touches.refl _ s

theorem disqualify_touches (ref : Reference) (s : State) : Touches [.clock, .mgmt] s (disqualify ref s) := by
  have clock (f) : Touches [.clock, .mgmt] s (s.onClock f) := (onClock_touches f s).mono (by simp)
  unfold disqualify
  simp only
  split
  · exact (clock _).trans (enterHoldover_touches _)
  · exact clock _

theorem loseReference_touches (ref : Reference) (s : State) : Touches [.clock, .mgmt] s (loseReference ref s) :=
  ((onClock_touches _ s).mono (by simp)).trans (disqualify_touches _ _)

theorem loseEdges_touches (ref : Reference) (s : State) : Touches [.clock, .mgmt] s (loseEdges ref s) := by
  unfold loseEdges
  split
  · exact loseReference_touches ref s
  · exact Touches.refl _ s

theorem loseBefore_touches (ref : Reference) (t : Nat) (s : State) : Touches [.clock, .mgmt] s (loseBefore ref t s) := by
  unfold loseBefore
  split
  · exact loseReference_touches ref s
  · exact Touches.refl _ s

theorem referenceEdge_touches (ref : Reference) (phase : Nat) (countFirst : Bool) (s : State) :
    Touches [.clock, .mgmt] s (referenceEdge ref phase countFirst s) := by
  have counts (t : State) : Touches [.clock, .mgmt] t (countPullIn t) := (onClock_touches _ t).mono (by simp)
  have measures (t : State) : Touches [.clock, .mgmt] t (measureEdge ref (s.clock.ticks + phase) t) :=
    measureEdge_touches _ _ t
  have lost := loseBefore_touches ref (s.clock.ticks + phase) s
  unfold referenceEdge
  simp only
  split
  · exact ((lost.trans (counts _)).trans (finishPullIn_touches _)).trans (measures _)
  · split
    · exact (lost.trans (measures _)).trans (counts _)
    · exact lost.trans (measures _)

theorem expiryStep_touches (s : State) : Touches [.clock, .mgmt] s (expiryStep s) := by
  unfold expiryStep
  repeat' split
  all_goals first
    | exact Touches.refl _ s
    | exact expireHoldover_touches s

theorem latchOutput_touches (i : Fin 2) (s : State) : Touches [.clock] s (latchOutput i s) := onClock_touches _ s

/-! ### The converter links -/

theorem postLinkAlarm_touches (i : Fin 8) (s : State) : Touches [.mgmt] s (postLinkAlarm i s) := postAlarm_touches _ s

theorem endCommand_touches (i : Fin 8) (status : Status) (data : ReplyData) (s : State) :
    Touches [.links, .mgmt] s (endCommand i status data s) := by
  unfold endCommand
  split
  · exact ((onLink_touches _ _ s).mono (by simp)).trans ((pushReply_touches _ _ _ _).mono (by simp))
  · exact Touches.refl _ s

theorem enterAlign_touches (i : Fin 8) (s : State) : Touches [.links, .mgmt] s (enterAlign i s) :=
  (((onLink_touches _ _ s).mono (by simp)).trans (endCommand_touches _ _ _ _)).trans
    ((postLinkAlarm_touches _ _).mono (by simp))

theorem leaveReference_touches (i : Fin 8) (before : LinkState) (s : State) :
    Touches [.clock, .mgmt] s (leaveReference i before s) := by
  unfold leaveReference
  split
  · exact disqualify_touches _ s
  · exact Touches.refl _ s

theorem enterOff_touches (i : Fin 8) (s : State) : Touches [.clock, .links, .mgmt] s (enterOff i s) :=
  ((((onLink_touches _ _ s).mono (by simp)).trans ((endCommand_touches _ _ _ _).mono (by simp))).trans
    ((postLinkAlarm_touches _ _).mono (by simp))).trans ((leaveReference_touches _ _ _).mono (by simp))

theorem switchOff_touches (i : Fin 8) (s : State) : Touches [.clock, .links, .mgmt] s (switchOff i s) :=
  ((onLink_touches _ _ s).mono (by simp)).trans (enterOff_touches _ _)

theorem park_touches (i : Fin 8) (s : State) : Touches [.clock, .links, .mgmt] s (park i s) :=
  ((onLink_touches _ _ s).mono (by simp)).trans (enterOff_touches _ _)

theorem enterFault_touches (i : Fin 8) (reason : FaultReason) (s : State) :
    Touches [.clock, .links, .mgmt] s (enterFault i reason s) := by
  have faulted : Touches [.clock, .links, .mgmt] s (leaveReference i s.links[i].state
      (postLinkAlarm i (abortCommand i (s.onLink i (Link.faulted reason))))) :=
    ((((onLink_touches _ _ s).mono (by simp)).trans ((endCommand_touches _ _ _ _).mono (by simp))).trans
      ((postLinkAlarm_touches _ _).mono (by simp))).trans ((leaveReference_touches _ _ _).mono (by simp))
  unfold enterFault
  simp only
  split
  · exact faulted.trans (park_touches _ _)
  · exact faulted

theorem moveAligned_touches (i : Fin 8) (s : State) : Touches [.links, .mgmt] s (moveAligned i s) := by
  unfold moveAligned
  simp only
  split
  · exact ((onLink_touches _ _ s).mono (by simp)).trans ((postLinkAlarm_touches _ _).mono (by simp))
  · exact Touches.refl _ s

theorem judge_touches (i : Fin 8) (j : Judgement) (s : State) : Touches [.clock, .links, .mgmt] s (judge i j s) := by
  have link (f) : Touches [.clock, .links, .mgmt] s (s.onLink i f) := (onLink_touches _ _ s).mono (by simp)
  have ended (status : Status) (data : ReplyData) (t : State) :
      Touches [.clock, .links, .mgmt] t (endCommand i status data t) := (endCommand_touches _ _ _ t).mono (by simp)
  have posted (t : State) : Touches [.clock, .links, .mgmt] t (postLinkAlarm i t) :=
    (postLinkAlarm_touches _ t).mono (by simp)
  unfold judge
  simp only
  split
  · exact (link _).trans (enterFault_touches _ _ _)
  · split
    · split
      · exact ((link _).trans (ended _ _ _)).trans (posted _)
      · exact (link _).trans (posted _)
    · split
      · exact (link _).trans (ended _ _ _)
      · exact link _

theorem startFrame_touches (i : Fin 8) (phase : Nat) (countFirst : Bool) (s : State) :
    Touches [.clock, .links, .mgmt] s (startFrame i phase countFirst s) := by
  have link (f) : Touches [.clock, .links, .mgmt] s (s.onLink i f) := (onLink_touches _ _ s).mono (by simp)
  unfold startFrame
  simp only
  split
  · split
    · exact (link _).trans ((referenceEdge_touches _ _ _ _).mono (by simp))
    · exact link _
  · exact Touches.refl _ s

theorem missFrame_touches (i : Fin 8) (s : State) : Touches [.clock, .links, .mgmt] s (missFrame i s) := by
  unfold missFrame
  split
  · exact judge_touches _ _ s
  · exact Touches.refl _ s

theorem receiveFrame_touches (i : Fin 8) (bytes : List Byte) (s : State) :
    Touches [.clock, .links, .mgmt] s (receiveFrame i bytes s) := by
  have missed : Touches [.clock, .links, .mgmt] s
      (if s.links[i].frames.any (fun f => decide (f.status = .started)) then missFrame i s else s) := by
    split
    · exact missFrame_touches _ s
    · exact Touches.refl _ s
  have judged (t : State) : Touches [.clock, .links, .mgmt] t
      (if startedFirst t.links[i] then judge i (judgeBytes t.gen.rate.mult t.links[i].reference bytes) t else t) := by
    split
    · exact judge_touches _ _ _
    · exact Touches.refl _ _
  exact missed.trans (judged _)

theorem loseFrame_touches (i : Fin 8) (s : State) : Touches [.clock, .links, .mgmt] s (loseFrame i s) := by
  unfold loseFrame
  split
  · exact judge_touches _ _ s
  · exact Touches.refl _ s

theorem failAlign_touches (i : Fin 8) (s : State) : Touches [.clock, .links, .mgmt] s (failAlign i s) := by
  unfold failAlign
  split
  · exact enterFault_touches _ _ s
  · exact Touches.refl _ s

theorem expireHoldOff_touches (i : Fin 8) (s : State) : Touches [.links, .mgmt] s (expireHoldOff i s) := by
  unfold expireHoldOff
  split
  · exact enterAlign_touches _ s
  · exact Touches.refl _ s

theorem timeOutCommand_touches (i : Fin 8) (s : State) : Touches [.links, .mgmt] s (timeOutCommand i s) := by
  unfold timeOutCommand
  split
  · exact ((onLink_touches _ _ s).mono (by simp)).trans (endCommand_touches _ _ _ _)
  · exact Touches.refl _ s

theorem startLinks_touches (s : State) : Touches [.links] s (startLinks s) :=
  Touches.foldl (fun t i => onLink_touches i _ t) linkNumbers s

/-! ### The rule unit and the surface links -/

theorem writeRecord_touches (src dst : Slot) (f : Crosspoint → Crosspoint) (s : State) :
    Touches [.engine] s (writeRecord src dst f s) := onEngine_touches _ s

theorem onPair_touches {parts : List Part} (rules : Part.rules ∈ parts) (src dst : Slot)
    (act : Crosspoint → State → State) (acts : ∀ r s, Touches parts s (act r s)) (s : State) :
    Touches parts s (onPair src dst act s) := by
  unfold onPair
  split
  · exact (onRules_touches _ s).mono (by simpa using rules)
  · exact acts _ s

theorem runAction_touches (m : InMessage) (a : Action) (s : State) :
    Touches [.engine, .surfaces, .rules, .mgmt] s (runAction m a s) := by
  have table (src dst : Slot) (f) (t : State) :
      Touches [.engine, .surfaces, .rules, .mgmt] t (writeRecord src dst f t) :=
    (writeRecord_touches _ _ _ t).mono (by simp)
  have rules (f) (t : State) : Touches [.engine, .surfaces, .rules, .mgmt] t (t.onRules f) :=
    (onRules_touches _ t).mono (by simp)
  have gain (link : Fin 4) (src dst : Slot) (f) :
      Touches [.engine, .surfaces, .rules, .mgmt] s (surfaceGain link src dst f s) :=
    onPair_touches (by simp) _ _ _ (fun r t => by split; exacts [table _ _ _ t, rules _ t]) s
  have touch (link : Fin 4) (src dst : Slot) (on : Bool) :
      Touches [.engine, .surfaces, .rules, .mgmt] s (touchPair link src dst on s) :=
    onPair_touches (by simp) _ _ _ (fun r t => by
      repeat' split
      all_goals first
        | exact table _ _ _ t
        | exact rules _ t
        | exact Touches.refl _ t) s
  have offer (link : Fin 4) (kind : UpdateKind) (address value : Nat) :
      Touches [.engine, .surfaces, .rules, .mgmt] s (offerUpdate link kind address value s) :=
    (offerUpdate_touches _ _ _ _ s).mono (by simp)
  unfold runAction
  split
  all_goals first
    | exact Touches.refl _ s
    | exact gain _ _ _ _
    | exact touch _ _ _ _
    | exact offer _ _ _ _
    | exact (postEvent_touches _ s).mono (by simp)
    | (split; exacts [onPair_touches (by simp) _ _ _ (fun _ t => table _ _ _ t) s, Touches.refl _ s])

theorem actOn_touches (m : InMessage) (s : State) : Touches [.engine, .surfaces, .rules, .mgmt] s (actOn m s) := by
  have rules (f) (t : State) : Touches [.engine, .surfaces, .rules, .mgmt] t (t.onRules f) :=
    (onRules_touches _ t).mono (by simp)
  unfold actOn
  split
  · exact (onSurface_touches _ _ s).mono (by simp)
  · simp only
    split
    · exact ((rules _ s).trans (rules _ _)).trans (Touches.foldl (fun t a => runAction_touches m a t) _ _)
    · exact (rules _ s).trans (rules _ _)

theorem hearHello_touches (i : Fin 4) (model : Nat) (s : State) : Touches [.surfaces, .mgmt] s (hearHello i model s) := by
  have surface (f) : Touches [.surfaces, .mgmt] s (s.onSurface i f) := (onSurface_touches _ _ s).mono (by simp)
  unfold hearHello
  simp only
  split
  · exact surface _
  · exact (surface _).trans ((postAlarm_touches _ _).mono (by simp))

theorem hearKeepalive_touches (i : Fin 4) (s : State) : Touches [.surfaces] s (hearKeepalive i s) :=
  onSurface_touches _ _ s

theorem hearMessage_touches (m : InMessage) (clamped : Bool) (s : State) :
    Touches [.engine, .surfaces, .rules, .mgmt] s (hearMessage m clamped s) := by
  have surface (f) : Touches [.engine, .surfaces, .rules, .mgmt] s (s.onSurface m.link f) :=
    (onSurface_touches _ _ s).mono (by simp)
  unfold hearMessage
  simp only
  split
  · split
    · exact (surface _).trans (actOn_touches _ _)
    · exact (surface _).trans ((postEvent_touches _ _).mono (by simp))
  · exact surface _

theorem discardRun_touches (i : Fin 4) (kept : List Byte) (s : State) : Touches [.surfaces] s (discardRun i kept s) :=
  onSurface_touches _ _ s

theorem expireSilence_touches (i : Fin 4) (s : State) :
    Touches [.engine, .surfaces, .mgmt] s (expireSilence i s) := by
  unfold expireSilence
  simp only
  split
  · exact (((onEngine_touches _ s).mono (by simp)).trans ((onSurface_touches _ _ _).mono (by simp))).trans
      ((postAlarm_touches _ _).mono (by simp))
  · exact Touches.refl _ s

theorem expireInterval_touches (i : Fin 4) (s : State) : Touches [.surfaces] s (expireInterval i s) := by
  unfold expireInterval
  split
  · exact onSurface_touches _ _ s
  · exact Touches.refl _ s

/-! ### Meters, the transmitter, the store and the mode -/

theorem offerSegments_touches (thresholds : Vector Nat 16) :
    ∀ (l : List (Nat × MeterPoint)) (s : State), Touches [.surfaces] s (offerSegments thresholds l s)
  | [], s => Touches.refl _ s
  | (_, p) :: rest, s => by
    unfold offerSegments
    split
    · exact (offerUpdate_touches _ _ _ _ s).trans (offerSegments_touches thresholds rest _)
    · exact offerSegments_touches thresholds rest s

theorem reportMeters_touches (s : State) : Touches [.boundary, .surfaces, .meter, .mgmt] s (reportMeters s) := by
  unfold reportMeters
  split
  · simp only
    refine Touches.trans ?_ ((onMeter_touches _ _).mono (by simp))
    refine Touches.trans ?_ ((offerSegments_touches _ _ _).mono (by simp))
    refine Touches.trans ((onBoundary_touches (fun b => { b with report := false }) s).mono (by simp)) ?_
    split
    · exact (onMgmt_touches _ _).mono (by simp)
    · exact Touches.refl _ _
  · exact Touches.refl _ s

theorem promoteReport_touches (s : State) : Touches [.mgmt] s (promoteReport s) := onMgmt_touches _ s

theorem arbitrate_touches (s : State) : Touches [.mgmt] s (arbitrate s) := by
  unfold arbitrate
  split
  · exact onMgmt_touches _ s
  · exact Touches.refl _ s

theorem endBlock_touches (s : State) : Touches [.mgmt] s (endBlock s) := by
  unfold endBlock
  split
  · exact onMgmt_touches _ s
  all_goals exact Touches.refl _ s

theorem endMessage_touches (s : State) : Touches [.mgmt, .device] s (endMessage s) := by
  unfold endMessage
  split
  · exact ((onMgmt_touches _ s).mono (by simp)).trans ((onDevice_touches _ _).mono (by simp))
  all_goals exact Touches.refl _ s

theorem completeStore_touches (s : State) : Touches [.mgmt, .device] s (completeStore s) := by
  unfold completeStore
  split
  · exact (((onDevice_touches _ s).mono (by simp)).trans ((pushReply_touches _ _ _ _).mono (by simp))).trans
      ((postAlarm_touches _ _).mono (by simp))
  all_goals exact Touches.refl _ s

theorem moveLinks_touches (s : State) : Touches [.links, .mgmt] s (moveLinks s) :=
  Touches.foldl (fun t i => moveAligned_touches i t) linkNumbers s

theorem enterSetup_touches (s : State) : Touches [.links, .engine, .mgmt, .device] s (enterSetup s) :=
  (((onEngine_touches _ s).mono (by simp)).trans ((onDevice_touches _ _).mono (by simp))).trans
    ((moveLinks_touches _).mono (by simp))

theorem enterOperate_touches (s : State) : Touches [.links, .mgmt, .device] s (enterOperate s) :=
  ((onDevice_touches _ s).mono (by simp)).trans ((moveLinks_touches _).mono (by simp))

/-! ### The block boundary -/

theorem applyCommit_touches (s : State) : Touches [.boundary, .engine, .mgmt] s (applyCommit s) := by
  unfold applyCommit
  simp only
  split
  · refine Touches.trans ((onBoundary_touches (fun b => { b with commit := false }) s).mono (by simp)) ?_
    split
    · exact ((onEngine_touches _ _).mono (by simp)).trans ((pushReply_touches _ _ _ _).mono (by simp))
    · exact Touches.refl _ _
  · exact Touches.refl _ s

theorem playTime_touches (flushing : Bool) (s : State) : Touches [.uplink, .mgmt] s (playTime flushing s) := by
  have up (f) : Touches [.uplink, .mgmt] s (s.onUplink f) := (onUplink_touches f s).mono (by simp)
  unfold playTime
  split
  · exact up _
  · split
    · exact up _
    · simp only
      split
      · exact (up _).trans ((postAlarm_touches _ _).mono (by simp))
      · exact up _

theorem countLoss_touches (s : State) : Touches [.uplink] s (countLoss s) := onUplink_touches _ s

theorem openBlock_touches (s : State) :
    Touches [.gen, .boundary, .clock, .uplink, .meter, .mgmt] s (openBlock s) := by
  unfold openBlock
  simp only
  refine Touches.trans ?_ ((countLoss_touches _).mono (by simp))
  refine Touches.trans ?_ ((playTime_touches _ _).mono (by simp))
  constructor <;> simp

theorem realign_touches (i : Fin 8) (s : State) : Touches [.links, .mgmt] s (realign i s) := by
  unfold realign
  split
  · exact Touches.refl _ s
  · exact ((onLink_touches _ _ s).mono (by simp)).trans (enterAlign_touches _ _)

theorem changeRate_touches (s : State) :
    Touches [.gen, .boundary, .clock, .links, .uplink, .mgmt] s (changeRate s) := by
  unfold changeRate
  split
  · exact Touches.refl _ s
  · next r _ =>
    simp only
    refine Touches.trans ?_ (Touches.foldl (fun t i => (realign_touches i t).mono (by simp)) _ _)
    refine Touches.trans (Touches.trans (Touches.trans (Touches.trans
      ((onBoundary_touches (fun b => { b with rate := none }) s).mono (by simp))
      ((onGen_touches (FrameGen.setRate r) _).mono (by simp))) ((onUplink_touches UplinkRx.flush _).mono (by simp)))
      ((onClock_touches ClockUnit.restarted _).mono (by simp))) ?_
    split
    · exact Touches.refl _ _
    · exact (postClockAlarm_touches _).mono (by simp)

theorem effectConfig_touches (s : State) : Touches [.gen, .boundary, .uplink] s (effectConfig s) := by
  unfold effectConfig
  split
  · exact Touches.refl _ s
  · exact (((onBoundary_touches _ s).mono (by simp)).trans ((onGen_touches _ _).mono (by simp))).trans
      ((onUplink_touches _ _).mono (by simp))

theorem decideFallback_touches (s : State) : Touches [.boundary, .uplink, .engine] s (decideFallback s) := by
  unfold decideFallback
  simp only
  split
  · refine Touches.trans ((onBoundary_touches (fun b => { b with fallback := false }) s).mono (by simp)) ?_
    split
    · exact Touches.refl _ _
    · exact ((onEngine_touches _ _).mono (by simp)).trans ((onUplink_touches _ _).mono (by simp))
  · exact Touches.refl _ s

/-! ### Requests -/

theorem arriveRequest_touches (r : RequestFrame) (s : State) : Touches [.uplink, .mgmt] s (arriveRequest r s) := by
  unfold arriveRequest
  simp only
  refine (hearFrame_touches s).trans ?_
  split
  · exact ((countRequest_touches _ _).mono (by simp)).trans ((onMgmt_touches _ _).mono (by simp))
  · exact (countRequest_touches _ _).mono (by simp)

/-- The answering of a request touches the transmitter and what its owner touches. -/
theorem answer_touches {parts : List Part} (mgmt : Part.mgmt ∈ parts) (tag kind : Byte) (owner : Owner) (s : State)
    (owns : Touches parts s (owner s).1) : Touches parts s (answer tag kind owner s) := by
  unfold answer
  split
  · next s' a e =>
    have : (owner s).1 = s' := by rw [e]
    exact (this ▸ owns).trans ((pushReply_touches _ _ _ _).mono (by simpa using mgmt))
  · next s' e =>
    have : (owner s).1 = s' := by rw [e]
    exact this ▸ owns

/-- The taking of a request touches the uplink receiver, the transmitter and what its owner touches. -/
theorem takeRequest_touches {parts : List Part} (uplink : Part.uplink ∈ parts) (mgmt : Part.mgmt ∈ parts) (i : Instr)
    (tag kind : Byte) (owner : Owner) (owns : ∀ t, Touches parts t (owner t).1) (s : State) :
    Touches parts s (takeRequest i tag kind owner s) := by
  have heard : Touches parts s (hearFrame s) := (hearFrame_touches s).mono (by simp [uplink, mgmt])
  have counted (d : Bool) (t : State) : Touches parts t (countRequest d t) :=
    (countRequest_touches d t).mono (by simp [mgmt])
  have answered (t : State) : Touches parts t (answer tag kind owner t) := answer_touches mgmt _ _ _ _ (owns t)
  unfold takeRequest
  split
  · simp only
    split
    · exact (heard.trans (counted _ _)).trans (answered _)
    · exact heard.trans (counted _ _)
  · split
    · exact ((onMgmt_touches _ s).mono (by simp [mgmt])).trans (answered _)
    · exact Touches.refl _ s

/-- An owner that only reports touches nothing. -/
theorem reports_touches (parts : List Part) (f : State → Answer) (s : State) : Touches parts s ((reports f) s).1 :=
  Touches.refl _ s

theorem appendEdit_touches (d : Edit) (s : State) : Touches [.engine] s (appendEdit d s).1 := by
  unfold appendEdit
  split <;> dsimp only
  · exact onEngine_touches _ s
  · exact Touches.refl _ s

theorem writePair_touches (src dst : Slot) (f : Crosspoint → Crosspoint) (g : PatchEntry → PatchEntry) (held : Bool)
    (s : State) : Touches [.engine] s (writePair src dst f g held s).1 := by
  unfold writePair
  repeat' split
  all_goals dsimp only
  all_goals first
    | exact Touches.refl _ s
    | exact onEngine_touches _ s

theorem applyLimit_touches (s : State) : Touches [.clock, .mgmt] s (applyLimit s) := by
  unfold applyLimit
  repeat' split
  all_goals first
    | exact Touches.refl _ s
    | exact expireHoldover_touches s

theorem dropIneligible_touches (s : State) : Touches [.clock, .mgmt] s (dropIneligible s) := by
  unfold dropIneligible
  repeat' split
  all_goals first
    | exact Touches.refl _ s
    | exact enterHoldover_touches s

theorem applyRecovery_touches (i : Fin 8) (s : State) : Touches [.clock, .links, .mgmt] s (applyRecovery i s) := by
  unfold applyRecovery
  repeat' split
  all_goals first
    | exact Touches.refl _ s
    | exact (enterAlign_touches _ s).mono (by simp)
    | exact ((onLink_touches _ _ s).mono (by simp)).trans (park_touches _ _)

theorem setPause_touches (pause : Bool) (i : Fin 8) (s : State) : Touches [.links, .mgmt] s (setPause pause i s) :=
  ((onLink_touches _ _ s).mono (by simp)).trans (moveAligned_touches _ _)

theorem ownUnknown_touches (s : State) : Touches [.mgmt] s (ownUnknown s).1 := by
  unfold ownUnknown
  dsimp only
  exact onMgmt_touches _ s

theorem clearGroup_touches (g : Group) (s : State) :
    Touches [.clock, .links, .uplink, .engine, .surfaces, .rules, .mgmt] s (clearGroup s g) := by
  cases g <;> unfold clearGroup <;> dsimp only
  · exact (onLink_touches _ _ s).mono (by simp)
  · exact (onSurface_touches _ _ s).mono (by simp)
  · exact (onEngine_touches _ s).mono (by simp)
  · exact (onClock_touches _ s).mono (by simp)
  · exact (onUplink_touches _ s).mono (by simp)
  · exact (onRules_touches _ s).mono (by simp)
  · exact (onMgmt_touches _ s).mono (by simp)

theorem ownCountersRead_touches (body) (s : State) :
    Touches [.clock, .links, .uplink, .engine, .surfaces, .rules, .mgmt] s (ownCountersRead body s).1 := by
  unfold ownCountersRead
  split
  · exact Touches.refl _ s
  · simp only
    split
    · exact clearGroup_touches _ s
    · exact Touches.refl _ s

theorem ownXpAdd_touches (body) (s : State) : Touches [.engine] s (ownXpAdd body s).1 := by
  unfold ownXpAdd
  repeat' split
  all_goals try dsimp only
  all_goals first
    | exact Touches.refl _ s
    | exact onEngine_touches _ s
    | exact appendEdit_touches _ s

theorem ownXpRemove_touches (body) (s : State) : Touches [.engine] s (ownXpRemove body s).1 := by
  unfold ownXpRemove
  repeat' split
  all_goals try dsimp only
  all_goals first
    | exact Touches.refl _ s
    | exact onEngine_touches _ s
    | exact appendEdit_touches _ s

theorem ownXpGain_touches (body) (s : State) : Touches [.engine] s (ownXpGain body s).1 := by
  unfold ownXpGain
  repeat' split
  all_goals try dsimp only
  all_goals first
    | exact Touches.refl _ s
    | exact onEngine_touches _ s
    | exact writePair_touches _ _ _ _ _ s

theorem ownXpMute_touches (body) (s : State) : Touches [.engine] s (ownXpMute body s).1 := by
  unfold ownXpMute
  repeat' split
  all_goals try dsimp only
  all_goals first
    | exact Touches.refl _ s
    | exact onEngine_touches _ s
    | exact writePair_touches _ _ _ _ _ s

theorem ownXpRamp_touches (body) (s : State) : Touches [.engine] s (ownXpRamp body s).1 := by
  unfold ownXpRamp
  repeat' split
  all_goals try dsimp only
  all_goals first
    | exact Touches.refl _ s
    | exact onEngine_touches _ s
    | exact writePair_touches _ _ _ _ _ s

theorem ownPatchCommit_touches (tag body) (s : State) : Touches [.engine] s (ownPatchCommit tag body s).1 := by
  unfold ownPatchCommit
  repeat' split
  all_goals try dsimp only
  all_goals first
    | exact Touches.refl _ s
    | exact onEngine_touches _ s

theorem ownPatchDiscard_touches (body) (s : State) : Touches [.engine] s (ownPatchDiscard body s).1 := by
  unfold ownPatchDiscard
  repeat' split
  all_goals try dsimp only
  all_goals first
    | exact Touches.refl _ s
    | exact onEngine_touches _ s

theorem ownRuleWrite_touches (body) (s : State) : Touches [.rules] s (ownRuleWrite body s).1 := by
  unfold ownRuleWrite
  repeat' split
  all_goals try dsimp only
  all_goals first
    | exact Touches.refl _ s
    | exact onRules_touches _ s

theorem ownRuleBlocks_touches (body) (s : State) : Touches [.rules] s (ownRuleBlocks body s).1 := by
  unfold ownRuleBlocks
  repeat' split
  all_goals try dsimp only
  all_goals first
    | exact Touches.refl _ s
    | exact onRules_touches _ s

theorem ownLawWrite_touches (body) (s : State) : Touches [.rules] s (ownLawWrite body s).1 := by
  unfold ownLawWrite
  repeat' split
  all_goals try dsimp only
  all_goals first
    | exact Touches.refl _ s
    | exact onRules_touches _ s

theorem ownSurfaceSend_touches (body) (s : State) : Touches [.surfaces] s (ownSurfaceSend body s).1 := by
  unfold ownSurfaceSend
  repeat' split
  all_goals try dsimp only
  all_goals first
    | exact Touches.refl _ s
    | exact offerUpdate_touches _ _ _ _ s

theorem ownSurfaceConfig_touches (body) (s : State) : Touches [.surfaces] s (ownSurfaceConfig body s).1 := by
  unfold ownSurfaceConfig
  repeat' split
  all_goals try dsimp only
  all_goals first
    | exact Touches.refl _ s
    | exact onSurface_touches _ _ s

theorem ownLinkConfig_touches (body) (s : State) : Touches [.clock, .links, .mgmt] s (ownLinkConfig body s).1 := by
  have link (i : Fin 8) (f) : Touches [.clock, .links, .mgmt] s (s.onLink i f) := (onLink_touches _ _ s).mono (by simp)
  unfold ownLinkConfig
  split
  · exact Touches.refl _ s
  · simp only
    repeat' split
    all_goals first
      | exact link _ _
      | exact (link _ _).trans (switchOff_touches _ _)
      | exact (link _ _).trans ((enterAlign_touches _ _).mono (by simp))
      | exact (link _ _).trans (applyRecovery_touches _ _)

theorem ownLinkRestart_touches (link) (s : State) : Touches [.links, .mgmt] s (ownLinkRestart link s).1 := by
  unfold ownLinkRestart
  repeat' split
  all_goals try dsimp only
  all_goals first
    | exact Touches.refl _ s
    | exact enterAlign_touches _ s

theorem ownLinkPause_touches (link) (s : State) : Touches [.links, .mgmt] s (ownLinkPause link s).1 := by
  unfold ownLinkPause
  repeat' split
  all_goals try dsimp only
  all_goals first
    | exact Touches.refl _ s
    | exact setPause_touches _ _ s

theorem ownLinkResume_touches (link) (s : State) : Touches [.links, .mgmt] s (ownLinkResume link s).1 := by
  unfold ownLinkResume
  repeat' split
  all_goals try dsimp only
  all_goals first
    | exact Touches.refl _ s
    | exact setPause_touches _ _ s

theorem ownConverterCommand_touches (tag body) (s : State) : Touches [.links] s (ownConverterCommand tag body s).1 := by
  unfold ownConverterCommand
  repeat' split
  all_goals try dsimp only
  all_goals first
    | exact Touches.refl _ s
    | exact onLink_touches _ _ s

theorem ownClockCandidates_touches (body) (s : State) : Touches [.clock, .mgmt] s (ownClockCandidates body s).1 := by
  unfold ownClockCandidates
  repeat' split
  all_goals try dsimp only
  all_goals first
    | exact Touches.refl _ s
    | exact ((((onClock_touches _ s).mono (by simp)).trans (applyLimit_touches _)).trans (dropIneligible_touches _)).trans (look_touches _)

theorem ownClockRate_touches (body) (s : State) : Touches [.clock] s (ownClockRate body s).1 := by
  unfold ownClockRate
  repeat' split
  all_goals try dsimp only
  all_goals first
    | exact Touches.refl _ s
    | exact onClock_touches _ s

theorem ownWclkOut_touches (body) (s : State) : Touches [.clock] s (ownWclkOut body s).1 := by
  unfold ownWclkOut
  repeat' split
  all_goals try dsimp only
  all_goals first
    | exact Touches.refl _ s
    | exact onClock_touches _ s

theorem ownMeterPoints_touches (body) (s : State) : Touches [.meter, .mgmt] s (ownMeterPoints body s).1 := by
  unfold ownMeterPoints
  repeat' split
  all_goals try dsimp only
  all_goals first
    | exact Touches.refl _ s
    | exact ((onMeter_touches _ s).mono (by simp)).trans ((onMgmt_touches _ _).mono (by simp))

theorem ownMeterConfig_touches (interval) (s : State) : Touches [.meter] s (ownMeterConfig interval s).1 := by
  unfold ownMeterConfig
  repeat' split
  all_goals try dsimp only
  all_goals first
    | exact Touches.refl _ s
    | exact onMeter_touches _ s

theorem ownMeterThresholds_touches (entries) (s : State) : Touches [.meter] s (ownMeterThresholds entries s).1 := by
  unfold ownMeterThresholds
  repeat' split
  all_goals try dsimp only
  all_goals first
    | exact Touches.refl _ s
    | exact onMeter_touches _ s

theorem ownModeSet_touches (mode) (s : State) : Touches [.links, .engine, .mgmt, .device] s (ownModeSet mode s).1 := by
  unfold ownModeSet
  split
  · exact Touches.refl _ s
  · simp only
    split
    · exact Touches.refl _ s
    · exact enterSetup_touches s
  · simp only
    split
    · exact Touches.refl _ s
    · exact (enterOperate_touches s).mono (by simp)

theorem ownUplinkConfig_touches (body) (s : State) : Touches [.uplink] s (ownUplinkConfig body s).1 := by
  unfold ownUplinkConfig
  repeat' split
  all_goals try dsimp only
  all_goals first
    | exact Touches.refl _ s
    | exact onUplink_touches _ s

theorem ownDeviceReset_touches (body) (s : State) : Touches [.device] s (ownDeviceReset body s).1 := by
  unfold ownDeviceReset
  repeat' split
  all_goals try dsimp only
  all_goals first
    | exact Touches.refl _ s
    | exact onDevice_touches _ s

theorem ownStoreWrite_touches (tag body) (s : State) : Touches [.device] s (ownStoreWrite tag body s).1 := by
  unfold ownStoreWrite
  repeat' split
  all_goals try dsimp only
  all_goals first
    | exact Touches.refl _ s
    | exact onDevice_touches _ s

end Sys2Proof.Machine
end

