-- ==== Sys2Proof/Laws/Operands.lean ====
section
/-! SUPPORT. What the readers of operands answer: each field reader on the values it accepts and on those it rejects, and
the ramp operations. -/

namespace Sys2Proof.Machine

open Sys2Proof.Safety

/-! ### Field readers -/

@[simp] theorem slotOf_val (n : Slot) : slotOf n.val = some n := by simp [slotOf]
theorem slotOf_large {n : Nat} (h : 528 ≤ n) : slotOf n = none := by simp [slotOf]; omega
@[simp] theorem linkOf_val (n : Fin 8) : linkOf n.val = some n := by simp [linkOf]
theorem linkOf_large {n : Nat} (h : 8 ≤ n) : linkOf n = none := by simp [linkOf]; omega
@[simp] theorem surfaceOf_val (n : Fin 4) : surfaceOf n.val = some n := by simp [surfaceOf]
theorem surfaceOf_large {n : Nat} (h : 4 ≤ n) : surfaceOf n = none := by simp [surfaceOf]; omega
@[simp] theorem rampOf_val (n : RampCode) : rampOf n.val = some n := by simp [rampOf]
theorem rampOf_large {n : Nat} (h : 8 ≤ n) : rampOf n = none := by simp [rampOf]; omega
@[simp] theorem yesNoOf_toNat (b : Bool) : yesNoOf b.toNat = some b := by cases b <;> rfl
theorem yesNoOf_large {n : Nat} (h : 2 ≤ n) : yesNoOf n = none := by
  unfold yesNoOf; rw [if_neg (by omega), if_neg (by omega)]
theorem coeffOf_inRange {x : Int} (h : InRange x) : coeffOf x = some x := by
  obtain ⟨h1, h2⟩ := h; simp [coeffOf, coeffInRange, h1, h2]
theorem coeffOf_outside {x : Int} (h : ¬ InRange x) : coeffOf x = none := by
  have : coeffInRange x = false := by simpa [coeffInRange, InRange] using h
  simp [coeffOf, this]
theorem within_inside {lo hi n : Nat} (h1 : lo ≤ n) (h2 : n ≤ hi) : within lo hi n = some n := by simp [within, h1, h2]
theorem within_outside {lo hi n : Nat} (h : n < lo ∨ hi < n) : within lo hi n = none := by
  unfold within; rw [if_neg (by omega)]
theorem recoveryOf_large {n : Nat} (h : 3 ≤ n) : recoveryOf n = none := by
  unfold recoveryOf; rw [if_neg (by omega), if_neg (by omega), if_neg (by omega)]
theorem familyOf_large {n : Nat} (h : 2 ≤ n) : familyOf n = none := by
  unfold familyOf; rw [if_neg (by omega), if_neg (by omega)]
theorem multOf_large {n : Nat} (h : 3 ≤ n) : multOf n = none := by
  unfold multOf; rw [if_neg (by omega), if_neg (by omega), if_neg (by omega)]
theorem referenceOf_large {n : Nat} (h : 10 ≤ n) : referenceOf n = none := by
  unfold referenceOf; rw [dif_neg (by omega), if_neg (by omega), if_neg (by omega)]
theorem tapOf_large {n : Nat} (h : 2 ≤ n) : tapOf n = none := by
  unfold tapOf; rw [if_neg (by omega), if_neg (by omega)]

/-- A list is read exactly when every entry is. -/
theorem readEach_eq_some {α β : Type} {f : α → Option β} {l : List α} {m : List β} :
    readEach f l = some m ↔ l.map f = m.map some := by
  induction l generalizing m with
  | nil => cases m <;> simp [readEach]
  | cons x xs ih =>
    cases hx : f x <;> cases hr : readEach f xs <;> cases m <;> simp_all [readEach]

theorem readEach_none {α β : Type} {f : α → Option β} {l : List α} {x : α} (m : x ∈ l) (h : f x = none) :
    readEach f l = none := by
  induction l with
  | nil => simp at m
  | cons y ys ih =>
    rcases List.mem_cons.mp m with rfl | m
    · simp [readEach, h]
    · simp [readEach, ih m]

/-! ### Ramps -/

theorem rampLength_pos (c : RampCode) : 0 < rampLength c := by
  unfold rampLength; split <;> positivity

theorem rampLength_le (c : RampCode) : rampLength c ≤ 1024 := by
  revert c; decide

/-- A write restarts the ramp where the effective target changed, and leaves the count alone where it did not. -/
theorem retarget_eq (code : RampCode) (before after : Crosspoint) :
    retarget code before after = restartedFrom before code after := by
  unfold retarget restartedFrom; split <;> rfl

/-- A restart changes nothing but the count. -/
theorem retarget_fields (code : RampCode) (before after : Crosspoint) :
    (retarget code before after).source = after.source ∧ (retarget code before after).destination = after.destination ∧
      (retarget code before after).setGain = after.setGain ∧ (retarget code before after).muted = after.muted ∧
      (retarget code before after).ramp = after.ramp ∧ (retarget code before after).current = after.current ∧
      (retarget code before after).owner = after.owner ∧
      (retarget code before after).automation = after.automation := by
  unfold retarget; split <;> simp

@[simp] theorem retarget_effectiveTarget (code : RampCode) (before after : Crosspoint) :
    effectiveTarget (retarget code before after) = effectiveTarget after := by
  unfold retarget; split <;> rfl

/-- A ramp step changes only the current coefficient and the count. -/
theorem rampStep_fields (r : Crosspoint) :
    (rampStep r).source = r.source ∧ (rampStep r).destination = r.destination ∧ (rampStep r).setGain = r.setGain ∧
      (rampStep r).muted = r.muted ∧ (rampStep r).ramp = r.ramp ∧ (rampStep r).owner = r.owner ∧
      (rampStep r).automation = r.automation := by
  unfold rampStep; split <;> simp

@[simp] theorem rampStep_effectiveTarget (r : Crosspoint) : effectiveTarget (rampStep r) = effectiveTarget r := by
  unfold rampStep; split <;> rfl

@[simp] theorem rampStep_remaining (r : Crosspoint) : (rampStep r).remaining = r.remaining - 1 := by
  unfold rampStep; split
  · next h => omega
  · rfl

/-- The release of a hold keeps the pair, the current coefficient, the mute and the ramp code, and ends the hold. -/
theorem releaseHold_fields (r : Crosspoint) :
    (releaseHold r).source = r.source ∧ (releaseHold r).destination = r.destination ∧
      (releaseHold r).current = r.current ∧ (releaseHold r).muted = r.muted ∧ (releaseHold r).ramp = r.ramp ∧
      (releaseHold r).owner = none := by
  unfold releaseHold
  split
  · next gain code _ =>
    obtain ⟨h1, h2, -, h4, h5, h6, h7, -⟩ :=
      retarget_fields code r { r with setGain := gain, owner := none, automation := none }
    exact ⟨h1, h2, h6, h4, h5, h7⟩
  · simp

/-! ### Bounded counters -/

theorem bump_le {max n : Nat} (h : n ≤ max) : bump max n ≤ max := by
  unfold bump; split <;> omega

theorem bump_of_lt {max n : Nat} (h : n < max) : bump max n = n + 1 := by
  unfold bump; rw [if_pos h]

end Sys2Proof.Machine
end

