-- ==== Sys2Proof/Laws/Ops.lean ====
section
/-! SUPPORT. What each shared operation of Ops.lean does, said once: running a command, taking a request, the queues, the
update sets, the patch table and the touch holds. -/

namespace Sys2Proof.Machine

open Sys2Proof.Safety

/-! ### Running a command -/

theorem run_powered (f : State → State) {s : State} (h : s.powered = true) : run f s = .next (f s) := by
  unfold run; rw [if_pos h]

@[simp] theorem afterAll_nil (s : State) : afterAll [] s = s := rfl

theorem afterAll_cons {c : Instr} {cs : List Instr} {s t : State} (h : exec c s = .next t) :
    afterAll (c :: cs) s = afterAll cs t := by
  simp [afterAll, h]

theorem afterAll_append (a b : List Instr) (s : State) : afterAll (a ++ b) s = afterAll b (afterAll a s) :=
  List.foldl_append

theorem run_unpowered (f : State → State) {s : State} (h : s.powered = false) : run f s = .next s := by
  unfold run; rw [h]; rfl

/-- A command answers a next state: its effect with power, the state as it was without. -/
theorem run_cases {f : State → State} {s t : State} (h : run f s = .next t) :
    (s.powered = true ∧ t = f s) ∨ (s.powered = false ∧ t = s) := by
  cases hp : s.powered
  · rw [run_unpowered f hp] at h; cases h; exact .inr ⟨rfl, rfl⟩
  · rw [run_powered f hp] at h; cases h; exact .inl ⟨rfl, rfl⟩

/-! ### The period a command falls in -/

theorem startPeriod_taken (s : State) : (startPeriod s).boundary.taken = false := rfl

theorem act_inPeriod (f : State → State) {s : State} (h : InPeriod s) : act f s = .next (f s) := by
  unfold act entered; rw [run_powered _ h.1, h.2]; rfl

theorem act_unpowered (f : State → State) {s : State} (h : s.powered = false) : act f s = .next s := run_unpowered _ h

/-- A command answers a next state: its effect in the period it falls in, or without power the state as it was. -/
theorem act_cases {f : State → State} {s t : State} (h : act f s = .next t) :
    (s.powered = true ∧ t = f (entered s)) ∨ (s.powered = false ∧ t = s) := run_cases h

/-! ### Replies and the taking of a request -/

theorem pushReply_eq (tag kind : Byte) (a : Answer) (s : State) :
    pushReply tag kind a s = { s with mgmt := { s.mgmt with replies := s.mgmt.replies ++ [⟨tag, kind, a⟩] } } := rfl

@[simp] theorem answer_owned (tag kind : Byte) (f : State → State × Answer) (s : State) :
    answer tag kind (owned f) s = pushReply tag kind (f s).2 (f s).1 := rfl

@[simp] theorem answer_reports (tag kind : Byte) (f : State → Answer) (s : State) :
    answer tag kind (reports f) s = pushReply tag kind (f s) s := rfl

theorem answer_some {tag kind : Byte} {owner : Owner} {s t : State} {a : Answer} (h : owner s = (t, some a)) :
    answer tag kind owner s = pushReply tag kind a t := by
  unfold answer; rw [h]

theorem answer_none {tag kind : Byte} {owner : Owner} {s t : State} (h : owner s = (t, none)) :
    answer tag kind owner s = t := by
  unfold answer; rw [h]

/-- What the taking of a request can do: act as owner on the oldest waiting request, leave another one waiting, or, where
none waits, stand for the arrival and the taking, or for an arrival that is dropped. -/
theorem takeRequest_cases (i : Instr) (tag kind : Byte) (owner : Owner) (s : State) :
    (∃ r rest, s.mgmt.requests = r :: rest ∧ decodeRequest r = i ∧
      takeRequest i tag kind owner s = answer tag kind owner (taken rest s)) ∨
    (∃ r rest, s.mgmt.requests = r :: rest ∧ decodeRequest r ≠ i ∧ takeRequest i tag kind owner s = s) ∨
    (s.mgmt.requests = [] ∧ placesInUse (hearFrame s) < 16 ∧
      takeRequest i tag kind owner s = answer tag kind owner (countRequest false (hearFrame s))) ∨
    (s.mgmt.requests = [] ∧ 16 ≤ placesInUse (hearFrame s) ∧
      takeRequest i tag kind owner s = countRequest true (hearFrame s)) := by
  cases hr : s.mgmt.requests with
  | nil =>
    by_cases hp : placesInUse (hearFrame s) < 16
    · exact .inr (.inr (.inl ⟨rfl, hp, by simp [takeRequest, hr, hp]⟩))
    · exact .inr (.inr (.inr ⟨rfl, by omega, by simp [takeRequest, hr, hp]⟩))
  | cons r rest =>
    by_cases hd : decodeRequest r = i
    · exact .inl ⟨r, rest, rfl, hd, by simp [takeRequest, hr, hd, taken, State.onMgmt]⟩
    · exact .inr (.inl ⟨r, rest, rfl, hd, by simp [takeRequest, hr, hd]⟩)

/-- Where the command takes the oldest waiting request, its owner acts with that request in flight. -/
theorem takeRequest_of_takes {i : Instr} {rest : List RequestFrame} {s : State} (h : Takes i rest s) (tag kind : Byte)
    (owner : Owner) : takeRequest i tag kind owner s = answer tag kind owner (taken rest s) := by
  obtain ⟨-, r, hr, hd⟩ := h
  simp [takeRequest, hr, hd, taken, State.onMgmt]

/-- The same for the command as it runs, with its owner's effect and answer. -/
theorem act_takeRequest {i : Instr} {rest : List RequestFrame} {s : State} (h : Takes i rest s) (tag kind : Byte)
    (f : State → State × Answer) :
    act (takeRequest i tag kind (owned f)) s =
      .next (pushReply tag kind (f (taken rest s)).2 (f (taken rest s)).1) := by
  rw [act_inPeriod _ h.1, takeRequest_of_takes h, answer_owned]

theorem act_takeRequest_reports {i : Instr} {rest : List RequestFrame} {s : State} (h : Takes i rest s)
    (tag kind : Byte) (f : State → Answer) :
    act (takeRequest i tag kind (reports f)) s = .next (replied rest tag kind (f (taken rest s)) s) := by
  rw [act_inPeriod _ h.1, takeRequest_of_takes h, answer_reports]; rfl

/-! ### Alarms, events and update sets -/

theorem postAlarm_eq (a : Alarm) (s : State) :
    postAlarm a s = { s with mgmt := { s.mgmt with
      alarms := queueAlarm a s.mgmt.alarms
      counters := (postAlarm a s).mgmt.counters } } := rfl

/-- An alarm that has been posted is in the queue. -/
theorem queueAlarm_posted (a : Alarm) (q : List AlarmEntry) : ∃ e ∈ queueAlarm a q, e.alarm = a := by
  unfold queueAlarm
  split
  · next h =>
    obtain ⟨e, he, hk⟩ := List.any_eq_true.mp h
    exact ⟨⟨a, bump 255 e.superseded⟩, List.mem_map.mpr ⟨e, he, by simp [of_decide_eq_true hk]⟩, rfl⟩
  · exact ⟨⟨a, 0⟩, by simp, rfl⟩

/-- The keys of the queue: a new key is appended, a key that is there stays in its place. -/
theorem queueAlarm_keys (a : Alarm) (q : List AlarmEntry) :
    (queueAlarm a q).map (fun e => e.alarm.key) =
      if a.key ∈ q.map (fun e => e.alarm.key) then q.map (fun e => e.alarm.key)
      else q.map (fun e => e.alarm.key) ++ [a.key] := by
  have hiff : q.any (fun e => e.alarm.key = a.key) = true ↔ a.key ∈ q.map (fun e => e.alarm.key) := by
    rw [List.any_eq_true, List.mem_map]
    exact exists_congr fun e => and_congr_right fun _ => decide_eq_true_iff
  unfold queueAlarm
  by_cases h : a.key ∈ q.map (fun e => e.alarm.key)
  · rw [if_pos (hiff.mpr h), if_pos h, List.map_map]
    refine List.map_congr_left fun e _ => ?_
    simp only [Function.comp_apply]
    split
    · next k => exact k.symm
    · rfl
  · rw [if_neg (fun c => h (hiff.mp c)), if_neg h, List.map_append]; rfl

/-- A set after an offer keeps its bound and its distinct keys (R129). -/
theorem placeUpdate_sound (kind : UpdateKind) (address value : Nat) {set : List Update} (h : UpdatesSound set) :
    UpdatesSound (placeUpdate kind address value set).1 := by
  obtain ⟨h1, h2⟩ := h
  unfold placeUpdate
  split
  · refine ⟨by simpa using h1, ?_⟩
    have : (set.map fun u => if u.kind = kind ∧ u.address = address then { u with value := value } else u).map
        (fun u => (u.kind, u.address)) = set.map fun u => (u.kind, u.address) := by
      rw [List.map_map]
      refine List.map_congr_left fun u _ => ?_
      simp only [Function.comp_apply]
      split <;> rfl
    rw [this]; exact h2
  · next hn =>
    split
    · refine ⟨by simp; omega, ?_⟩
      rw [List.map_append, List.nodup_append]
      refine ⟨h2, by simp, ?_⟩
      intro x hx y hy
      obtain ⟨u, hu, rfl⟩ := List.mem_map.mp hx
      simp only [List.map_cons, List.map_nil, List.mem_singleton] at hy
      subst hy
      intro e
      apply hn
      rw [List.any_eq_true]
      exact ⟨u, hu, by simpa using Prod.mk.inj e⟩
    · exact ⟨h1, h2⟩

/-! ### The patch table -/

@[simp] theorem Crosspoint.is_iff (r : Crosspoint) (src dst : Slot) :
    r.is src dst = true ↔ r.source = src ∧ r.destination = dst := by
  simp [Crosspoint.is]

@[simp] theorem Edit.is_iff (e : Edit) (src dst : Slot) : e.is src dst = true ↔ e.source = src ∧ e.destination = dst := by
  simp [Edit.is]

theorem findRecord_some {table : List Crosspoint} {src dst : Slot} {r : Crosspoint}
    (h : findRecord table src dst = some r) : r ∈ table ∧ r.source = src ∧ r.destination = dst := by
  refine ⟨List.mem_of_find?_eq_some h, ?_⟩
  simpa using List.find?_some h

theorem findRecord_none {table : List Crosspoint} {src dst : Slot} :
    findRecord table src dst = none ↔ ∀ r ∈ table, ¬ (r.source = src ∧ r.destination = dst) := by
  simp [findRecord]

theorem findEdit_some {edits : List Edit} {src dst : Slot} {e : Edit} (h : findEdit edits src dst = some e) :
    e ∈ edits ∧ e.source = src ∧ e.destination = dst := by
  refine ⟨List.mem_of_find?_eq_some h, ?_⟩
  simpa using List.find?_some h

theorem findEdit_none {edits : List Edit} {src dst : Slot} :
    findEdit edits src dst = none ↔ ∀ e ∈ edits, ¬ (e.source = src ∧ e.destination = dst) := by
  simp [findEdit]

/-- A write that keeps a record's pair is read back at that pair and changes no other. -/
theorem findRecord_updateRecord (f : Crosspoint → Crosspoint)
    (keeps : ∀ r, (f r).source = r.source ∧ (f r).destination = r.destination) (src dst src' dst' : Slot)
    (table : List Crosspoint) :
    findRecord (updateRecord src dst f table) src' dst' =
      if src' = src ∧ dst' = dst then (findRecord table src dst).map f else findRecord table src' dst' := by
  induction table with
  | nil => simp [findRecord, updateRecord]
  | cons r rest ih =>
    have step : findRecord (updateRecord src dst f (r :: rest)) src' dst' =
        if (if r.is src dst then f r else r).is src' dst' then some (if r.is src dst then f r else r)
        else findRecord (updateRecord src dst f rest) src' dst' := by
      simp only [findRecord, updateRecord, List.map_cons, List.find?_cons]
      split <;> simp_all
    have cons (a b : Slot) : findRecord (r :: rest) a b = if r.is a b then some r else findRecord rest a b := by
      simp only [findRecord, List.find?_cons]
      split <;> simp_all
    rw [step, ih, cons, cons]
    by_cases hr : r.source = src ∧ r.destination = dst
    · have hi : r.is src dst = true := (Crosspoint.is_iff _ _ _).mpr hr
      rw [if_pos hi]
      by_cases he : src' = src ∧ dst' = dst
      · obtain ⟨rfl, rfl⟩ := he
        have hf : (f r).is src' dst' = true := (Crosspoint.is_iff _ _ _).mpr ⟨(keeps r).1.trans hr.1, (keeps r).2.trans hr.2⟩
        simp [hf, hi]
      · have hf : ¬ (f r).is src' dst' = true := fun c => by
          rw [Crosspoint.is_iff, (keeps r).1, (keeps r).2, hr.1, hr.2] at c
          exact he ⟨c.1.symm, c.2.symm⟩
        have hn : ¬ r.is src' dst' = true := fun c => by
          rw [Crosspoint.is_iff, hr.1, hr.2] at c
          exact he ⟨c.1.symm, c.2.symm⟩
        simp only [if_neg hf, if_neg hn, if_neg he]
    · have hi : ¬ r.is src dst = true := fun c => hr ((Crosspoint.is_iff _ _ _).mp c)
      simp only [if_neg hi]
      by_cases he : src' = src ∧ dst' = dst
      · obtain ⟨rfl, rfl⟩ := he
        simp only [if_neg hi]
      · simp only [if_neg he]

/-- The records an insertion leaves. -/
@[simp] theorem mem_insertRecord {r x : Crosspoint} {table : List Crosspoint} :
    x ∈ insertRecord r table ↔ x = r ∨ x ∈ table := by
  induction table with
  | nil => simp [insertRecord]
  | cons y ys ih =>
    unfold insertRecord
    split
    · simp
    · simp [ih, or_left_comm]

/-- The records a removal leaves. -/
@[simp] theorem mem_eraseRecord {x : Crosspoint} {src dst : Slot} {table : List Crosspoint} :
    x ∈ eraseRecord src dst table ↔ x ∈ table ∧ ¬ (x.source = src ∧ x.destination = dst) := by
  unfold eraseRecord
  rw [List.mem_filter, Bool.not_eq_true', ← Bool.not_eq_true, Crosspoint.is_iff]

theorem Crosspoint.before_iff (a b : Crosspoint) :
    a.before b = true ↔ a.destination.val < b.destination.val ∨
      (a.destination.val = b.destination.val ∧ a.source.val < b.source.val) := by
  simp only [Crosspoint.before, decide_eq_true_eq, Fin.lt_def, Fin.ext_iff]

theorem Crosspoint.before_trans {a b c : Crosspoint} (h : a.before b = true) (k : b.before c = true) :
    a.before c = true := by
  rw [Crosspoint.before_iff] at *
  omega

/-- A record of a pair that is not in a sorted table joins it in order (R15, R33). -/
theorem insertRecord_sorted {r : Crosspoint} {table : List Crosspoint} (h : TableSorted table)
    (new : ∀ x ∈ table, ¬ (x.source = r.source ∧ x.destination = r.destination)) :
    TableSorted (insertRecord r table) := by
  induction table with
  | nil => simp [insertRecord, TableSorted]
  | cons y ys ih =>
    rw [TableSorted, List.pairwise_cons] at h
    unfold insertRecord
    split
    · next hb =>
      rw [TableSorted, List.pairwise_cons]
      refine ⟨fun x hx => ?_, List.pairwise_cons.mpr h⟩
      rcases List.mem_cons.mp hx with rfl | hx
      · exact hb
      · exact Crosspoint.before_trans hb (h.1 x hx)
    · next hb =>
      rw [TableSorted, List.pairwise_cons]
      refine ⟨fun x hx => ?_, ih h.2 fun x hx => new x (List.mem_cons_of_mem _ hx)⟩
      rcases mem_insertRecord.mp hx with rfl | hx
      · have hn := new y (by simp)
        rw [Crosspoint.before_iff] at hb ⊢
        rw [Fin.ext_iff, Fin.ext_iff] at hn
        omega
      · exact h.1 x hx

theorem eraseRecord_sorted {src dst : Slot} {table : List Crosspoint} (h : TableSorted table) :
    TableSorted (eraseRecord src dst table) := List.Pairwise.filter _ h

/-- A map that keeps every record's pair keeps the order. -/
theorem map_sorted {f : Crosspoint → Crosspoint}
    (keeps : ∀ r, (f r).source = r.source ∧ (f r).destination = r.destination) {table : List Crosspoint}
    (h : TableSorted table) : TableSorted (table.map f) := by
  rw [TableSorted, List.pairwise_map]
  refine List.Pairwise.imp (fun {a b} hab => ?_) h
  rw [Crosspoint.before_iff] at *
  rw [(keeps a).1, (keeps a).2, (keeps b).1, (keeps b).2]
  exact hab

/-- In a sorted table a record is the one found at its pair. -/
theorem findRecord_of_mem {table : List Crosspoint} (h : TableSorted table) {r : Crosspoint} (m : r ∈ table) :
    findRecord table r.source r.destination = some r := by
  induction table with
  | nil => simp at m
  | cons y ys ih =>
    rw [TableSorted, List.pairwise_cons] at h
    rcases List.mem_cons.mp m with rfl | m
    · simp [findRecord, Crosspoint.is]
    · have hb := (Crosspoint.before_iff _ _).mp (h.1 r m)
      have : ¬ y.is r.source r.destination = true := fun c => by
        rw [Crosspoint.is_iff, Fin.ext_iff, Fin.ext_iff] at c
        omega
      rw [← ih h.2 m]
      simp only [findRecord, List.find?_cons]
      split
      · next c => exact absurd c this
      · rfl

/-! ### The uplink -/

/-- What a valid downstream frame does: it restarts the loss count of an uplink that is UP, and returns one that is LOST
with a RETURN alarm. -/
theorem hearFrame_cases (s : State) :
    (s.uplink.state = .up ∧ hearFrame s = { s with uplink := { s.uplink with lossCount := 0, heard := true } }) ∨
    (s.uplink.state = .lost ∧
      hearFrame s =
        { (postUplinkAlarm .returned (some s.uplink.fallbackFlag)
            (s.onUplink fun u => { u with state := .up, lossCount := 0, heard := true })) with
          uplink := { s.uplink with state := .up, lossCount := 0, heard := true, fallbackFlag := false } }) := by
  cases hu : s.uplink.state with
  | up => exact .inl ⟨rfl, by unfold hearFrame; simp [hu, State.onUplink]⟩
  | lost => exact .inr ⟨rfl, by unfold hearFrame; simp only [hu, if_true]; rfl⟩

end Sys2Proof.Machine
end

