-- ==== Sys2Proof/Laws/Links.lean ====
section
/-! SUPPORT. What the entries of a converter link's states and a judgement leave of the links: the link they name, and every
other as it was; and what such an entry does to the transmitter and the clock unit. -/

namespace Sys2Proof.Machine

open Sys2Proof.Safety

/-! ### The link that an operation names -/

@[simp] theorem endCommand_link (i : Fin 8) (status : Status) (data : ReplyData) (s : State) :
    (endCommand i status data s).links[i.val] = { s.links[i.val] with relay := .idle } := by
  unfold endCommand
  split
  · simp [pushReply, State.onMgmt, State.onLink]
  · next h =>
    have : s.links[i.val].relay = .idle := by
      cases hr : s.links[i.val].relay <;> simp_all [Relay.tag]
    rw [← this]

/-- The replies after a command in flight has ended: one more where there was one. -/
theorem endCommand_replies (i : Fin 8) (status : Status) (data : ReplyData) (s : State) :
    (endCommand i status data s).mgmt.replies = s.mgmt.replies ++ (match s.links[i.val].relay.tag with
      | some tag => [⟨tag, 0x45#8, ⟨status, false, data⟩⟩]
      | none => []) := by
  unfold endCommand
  simp only [Fin.getElem_fin]
  split <;> simp_all [pushReply, State.onMgmt, State.onLink]

@[simp] theorem postLinkAlarm_links (i : Fin 8) (s : State) : (postLinkAlarm i s).links = s.links := rfl

/-- Entry to ALIGN leaves the link as R65 says, its relay idle. -/
@[simp] theorem enterAlign_link (i : Fin 8) (s : State) :
    (enterAlign i s).links[i.val] = { s.links[i.val].aligned with relay := .idle } := by
  simp [enterAlign, abortCommand, State.onLink]

theorem leaveReference_links (i : Fin 8) (before : LinkState) (s : State) :
    (leaveReference i before s).links = s.links := (leaveReference_touches i before s).links (by decide)

/-- Entry to OFF leaves the link as R64 says, its relay idle. -/
@[simp] theorem enterOff_link (i : Fin 8) (s : State) :
    (enterOff i s).links[i.val] = { s.links[i.val].switchedOff with relay := .idle } := by
  simp [enterOff, leaveReference_links, abortCommand, State.onLink]

/-- Entry to FAULT leaves the link as R68 says, its relay idle; under PARK it goes on to OFF with enable cleared. -/
theorem enterFault_link (i : Fin 8) (reason : FaultReason) (s : State) :
    (enterFault i reason s).links[i.val] =
      if s.links[i.val].recovery = .park then
        { ({ (s.links[i.val].faulted reason) with enable := false, relay := .idle } : Link).switchedOff with relay := .idle }
      else { s.links[i.val].faulted reason with relay := .idle } := by
  unfold enterFault
  simp only [Fin.getElem_fin]
  split
  · simp [park, leaveReference_links, abortCommand, State.onLink]
  · simp [leaveReference_links, abortCommand, State.onLink]

/-! ### Every other link -/

theorem onLink_other {i j : Fin 8} (h : j ≠ i) (f : Link → Link) (s : State) : (s.onLink i f).links[j] = s.links[j] :=
  modifyEntry_other _ _ _ _ h.symm

theorem endCommand_other {i j : Fin 8} (h : j ≠ i) (status : Status) (data : ReplyData) (s : State) :
    (endCommand i status data s).links[j] = s.links[j] := by
  unfold endCommand
  split
  · exact onLink_other h _ s
  · rfl

theorem enterAlign_other {i j : Fin 8} (h : j ≠ i) (s : State) : (enterAlign i s).links[j] = s.links[j] :=
  (endCommand_other h _ _ _).trans (onLink_other h _ s)

theorem enterOff_other {i j : Fin 8} (h : j ≠ i) (s : State) : (enterOff i s).links[j] = s.links[j] := by
  unfold enterOff
  rw [leaveReference_links]
  exact (endCommand_other h _ _ _).trans (onLink_other h _ s)

theorem enterFault_other {i j : Fin 8} (h : j ≠ i) (reason : FaultReason) (s : State) :
    (enterFault i reason s).links[j] = s.links[j] := by
  have faulted : (leaveReference i s.links[i].state
      (postLinkAlarm i (abortCommand i (s.onLink i (Link.faulted reason))))).links[j] = s.links[j] := by
    rw [leaveReference_links]
    exact (endCommand_other h _ _ _).trans (onLink_other h _ s)
  unfold enterFault
  simp only
  split
  · exact ((enterOff_other h _).trans (onLink_other h _ _)).trans faulted
  · exact faulted

theorem moveAligned_other {i j : Fin 8} (h : j ≠ i) (s : State) : (moveAligned i s).links[j] = s.links[j] := by
  unfold moveAligned
  simp only
  split
  · exact onLink_other h _ s
  · rfl

theorem judge_other {i j : Fin 8} (h : j ≠ i) (k : Judgement) (s : State) : (judge i k s).links[j] = s.links[j] := by
  have link (f) : (s.onLink i f).links[j] = s.links[j] := onLink_other h f s
  unfold judge
  dsimp only
  cases faultOf k s.links[i] (s.links[i].judged k) with
  | some reason => exact (enterFault_other h _ _).trans (link _)
  | none =>
    cases (relayAfter s.links[i].lateReply k s.links[i].relay).2 with
    | some bytes =>
      dsimp only
      split
      · exact (endCommand_other h _ _ _).trans (link _)
      · exact (endCommand_other h _ _ _).trans (link _)
    | none =>
      dsimp only
      split
      · exact link _
      · exact link _

/-! ### The parts of an entry to a state -/

/-- A candidate that can no longer supply edges: a clock unit that follows it enters HOLDOVER with its alarm, and any other
changes the candidate alone (R89, R98). -/
theorem disqualify_spec (ref : Reference) (s : State) :
    ((s.clock.lock = .pullIn ∨ s.clock.lock = .locked) ∧ s.clock.selected = some ref →
      disqualify ref s = postAlarm (.clockState .holdover (some ref) s.gen.rate s.clock.heldDeviation (stampNow s))
        { s with clock := heldOver ref s.clock }) ∧
    (¬ ((s.clock.lock = .pullIn ∨ s.clock.lock = .locked) ∧ s.clock.selected = some ref) →
      disqualify ref s = { s with clock := { s.clock with candidates := withoutReference ref s.clock } }) := by
  constructor
  · intro h
    have hf : follows s.clock ref = true := by simpa [follows] using h
    unfold disqualify; simp only [hf, if_true]
    have held : enterHoldover (s.onClock (ClockUnit.onCandidate ref fun k =>
          { k with qualification := .unqualified, window := none })) =
        postAlarm (.clockState .holdover s.clock.selected s.gen.rate s.clock.heldDeviation (stampNow s))
          { s with clock := { heldOver ref s.clock with lost := s.clock.selected } } := rfl
    rw [held, h.2]; rfl
  · intro h
    have hf : follows s.clock ref = false := by simpa [follows] using h
    unfold disqualify; simp only [hf]; rfl

/-- A frame too late to complete a reply completes none, and changes nothing of a command but what was gathered (R81). -/
theorem relayAfter_late (j : Judgement) (r : Relay) :
    (relayAfter true j r).2 = none ∧ (relayAfter true j r).1.tag = r.tag := by
  unfold relayAfter
  split <;> try exact ⟨rfl, rfl⟩
  split <;> try exact ⟨rfl, rfl⟩
  split
  · split
    · exact ⟨rfl, rfl⟩
    · split <;> exact ⟨rfl, rfl⟩
  · split <;> exact ⟨rfl, rfl⟩

/-- An entry to a state ends the command in flight with ABORTED (R82). -/
theorem abortCommand_spec (i : Fin 8) (f : Link → Link) (s : State) :
    abortCommand i (s.onLink i f) =
      { s with
        links := (s.onLink i fun l => { f l with relay := .idle }).links
        mgmt := { s.mgmt with replies := s.mgmt.replies ++ abortedReplies (f s.links[i]) } } := by
  have same : (s.onLink i f).links[i] = f s.links[i] := modifyEntry_same _ _ _
  unfold abortCommand endCommand abortedReplies
  rw [same]
  cases h : (f s.links[i]).relay.tag with
  | some tag =>
    simp only [pushReply, State.onMgmt, State.onLink, modifyEntry_twice]
    rfl
  | none =>
    have idle : (f s.links[i]).relay = .idle := by cases hr : (f s.links[i]).relay <;> simp_all [Relay.tag]
    have e : { f s.links[i] with relay := .idle } = f s.links[i] := by rw [← idle]
    have both : modifyEntry s.links i f = modifyEntry s.links i (fun l => { f l with relay := .idle }) :=
      congrArg (s.links.set i · ) e.symm
    simp only [State.onLink, List.append_nil, both]

/-- An entry to a state with its alarm: the link as `f` leaves it with its relay idle, the reply of a command it ends, and the
LINK_STATE alarm (R82, R83). -/
theorem entry_spec (i : Fin 8) (f : Link → Link) (s : State) :
    postLinkAlarm i (abortCommand i (s.onLink i f)) =
      postAlarm (.linkState i (f s.links[i]).state (f s.links[i]).degraded (f s.links[i]).pause (f s.links[i]).errors
          (if (f s.links[i]).state = .fault then (f s.links[i]).reason else none) (stampNow s))
        { s with
          links := (s.onLink i fun l => { f l with relay := .idle }).links
          mgmt := { s.mgmt with replies := s.mgmt.replies ++ abortedReplies (f s.links[i]) } } := by
  have same : (s.onLink i fun l => { f l with relay := .idle }).links[i] = { f s.links[i] with relay := .idle } :=
    modifyEntry_same _ _ _
  rw [abortCommand_spec]
  unfold postLinkAlarm
  dsimp only
  rw [same]
  rfl

/-! ### The entries and moves as a whole -/

theorem afterAlarms_nil (m : Management) : afterAlarms [] m = m := rfl

theorem afterAlarms_append (xs ys : List Alarm) (m : Management) :
    afterAlarms (xs ++ ys) m = afterAlarms ys (afterAlarms xs m) := List.foldl_append

/-- Posting an alarm changes the transmitter alone (R174). -/
theorem postAlarm_spec (a : Alarm) (s : State) : postAlarm a s = { s with mgmt := afterAlarms [a] s.mgmt } := by
  unfold postAlarm State.onMgmt
  dsimp only [afterAlarms, List.foldl]
  cases s.mgmt.alarms.any fun e => decide (e.alarm.key = a.key) <;> rfl

/-- Posting alarms leaves the requests that wait and the replies to be queued before or after it (R174). -/
theorem afterAlarms_queues (alarms : List Alarm) (requests : List RequestFrame) (replies : List Reply) (m : Management) :
    afterAlarms alarms { m with requests := requests, replies := replies } =
      { afterAlarms alarms m with requests := requests, replies := replies } := by
  induction alarms generalizing m with
  | nil => rfl
  | cons a rest ih => exact ih (afterAlarms [a] m)

/-- Entry to ALIGN from any state (R65, R82, R83). -/
theorem enterAlign_spec (i : Fin 8) (s : State) :
    enterAlign i s = { s with
      links := s.links.set i (freshAlign s.links[i])
      mgmt := afterAlarms [.linkState i .align false s.links[i].pause 0 none (stampNow s)]
        { s.mgmt with replies := s.mgmt.replies ++ abortedReplies s.links[i] } } := by
  unfold enterAlign
  rw [entry_spec, postAlarm_spec]
  rfl

/-- What the mode and the pause flag ask of a link: an aligned one moves where it is not there, with its alarm, and any other
stays as it is (R67). -/
theorem moveAligned_spec (i : Fin 8) (s : State) :
    let l := s.links[i]
    let after := if l.state = .active ∨ l.state = .paused then alignedState s.device.mode l.pause else l.state
    moveAligned i s = { s with
      links := s.links.set i (movedTo after l)
      mgmt := afterAlarms (if after = l.state then []
        else [.linkState i after l.degraded l.pause l.errors none (stampNow s)]) s.mgmt } := by
  dsimp only
  unfold moveAligned
  dsimp only
  by_cases aligned : s.links[i].state = .active ∨ s.links[i].state = .paused
  · by_cases stays : alignedState s.device.mode s.links[i].pause = s.links[i].state
    · rw [if_neg fun h => h.2 stays.symm, if_pos aligned, if_pos stays, movedTo, if_pos stays.symm, afterAlarms_nil]
      simp
    · have moves : s.links[i].state ≠ alignedState s.device.mode s.links[i].pause := Ne.symm stays
      rw [if_pos ⟨aligned, moves⟩, if_pos aligned, if_neg stays]
      unfold postLinkAlarm
      rw [postAlarm_spec]
      have notFault : alignedState s.device.mode s.links[i].pause ≠ .fault := by
        unfold alignedState; split <;> decide
      have same (f : Link → Link) : (s.onLink i f).links[i] = f s.links[i] := modifyEntry_same _ _ _
      simp only [same, notFault, movedTo, if_neg moves]
      rfl
  · rw [if_neg fun h => aligned h.1, if_neg aligned, if_pos rfl, movedTo, if_pos rfl, afterAlarms_nil]
    simp

/-- A link has left ALIGN, ACTIVE and PAUSED: its candidate is UNQUALIFIED, and a clock unit that followed it is in HOLDOVER
with its alarm posted (R84, R89, R98). -/
theorem leaveReference_spec (i : Fin 8) (before : LinkState) (s : State) (received : before.receives = true)
    (left : s.links[i].state.receives = false) :
    let following := (s.clock.lock = .pullIn ∨ s.clock.lock = .locked) ∧ s.clock.selected = some (.link i)
    leaveReference i before s = { s with
      clock := if following then heldOver (.link i) s.clock
        else { s.clock with candidates := withoutReference (.link i) s.clock }
      mgmt := afterAlarms
        (if following then
          [.clockState .holdover (some (.link i)) s.gen.rate s.clock.heldDeviation (stampNow s)] else []) s.mgmt } := by
  dsimp only
  unfold leaveReference
  rw [if_pos (by rw [received, left]; rfl)]
  by_cases h : (s.clock.lock = .pullIn ∨ s.clock.lock = .locked) ∧ s.clock.selected = some (.link i)
  · rw [(disqualify_spec (.link i) s).1 h, postAlarm_spec, if_pos h, if_pos h]
  · rw [(disqualify_spec (.link i) s).2 h, if_neg h, if_neg h, afterAlarms_nil]

/-- PARK takes a link that stands in FAULT to OFF with its enable cleared (R64, R68). -/
theorem park_spec (i : Fin 8) (s : State) (fault : s.links[i].state = .fault) (idle : s.links[i].relay = .idle) :
    park i s = { s with
      links := s.links.set i { s.links[i] with
        state := .off, enable := false, degraded := false, errors := 0, fresh := false, relay := .idle }
      mgmt := afterAlarms [.linkState i .off false s.links[i].pause 0 none (stampNow s)] s.mgmt } := by
  have twice (f g : Link → Link) : (s.onLink i f).onLink i g = s.onLink i fun l => g (f l) := by
    unfold State.onLink
    dsimp only
    rw [modifyEntry_twice]
    rfl
  have same (f : Link → Link) : (s.onLink i f).links[i] = f s.links[i] := modifyEntry_same _ _ _
  unfold park enterOff leaveReference
  rw [twice, entry_spec, postAlarm_spec, if_neg (by simp only [same, fault]; simp [LinkState.receives])]
  simp only [Link.switchedOff, abortedReplies, idle, Relay.tag, List.append_nil]
  rfl

/-- Entry to FAULT from a state that receives, and on to OFF under PARK (R68, R82 to R84, R89). -/
theorem enterFault_spec (i : Fin 8) (reason : FaultReason) (s : State) (receives : s.links[i].state.receives = true) :
    let l := s.links[i]
    let following := (s.clock.lock = .pullIn ∨ s.clock.lock = .locked) ∧ s.clock.selected = some (.link i)
    enterFault i reason s = { s with
      links := s.links.set i (faultedLink reason l)
      clock := if following then heldOver (.link i) s.clock
        else { s.clock with candidates := withoutReference (.link i) s.clock }
      mgmt := afterAlarms
        ([.linkState i .fault true l.pause 255 (some reason) (stampNow s)] ++
          (if following then
            [.clockState .holdover (some (.link i)) s.gen.rate s.clock.heldDeviation (stampNow s)] else []) ++
          if l.recovery = .park then [.linkState i .off false l.pause 0 none (stampNow s)] else [])
        { s.mgmt with replies := s.mgmt.replies ++ abortedReplies l } } := by
  dsimp only
  have same (f : Link → Link) : (s.onLink i f).links[i] = f s.links[i] := modifyEntry_same _ _ _
  unfold enterFault
  dsimp only
  rw [entry_spec, postAlarm_spec, leaveReference_spec i _ _ receives (by simp only [same]; rfl)]
  by_cases parked : s.links[i].recovery = .park
  · rw [if_pos parked, if_pos parked, park_spec i _ (by simp only [same]; rfl) (by simp only [same]), afterAlarms_append,
      afterAlarms_append]
    simp only [same, faultedLink, parked]
    simp [State.onLink, modifyEntry, Link.faulted, stampNow, abortedReplies]
    rw [show s.links[i.val].recovery = Recovery.park from parked]
  · rw [if_neg parked, if_neg parked, List.append_nil, afterAlarms_append]
    simp only [faultedLink, parked]
    simp [State.onLink, modifyEntry, Link.faulted, stampNow, abortedReplies]

end Sys2Proof.Machine
end

