-- ==== Sys2Proof/Laws/Requests.lean ====
section
/-! SUPPORT. What a request frame decodes to (R170, R193): one case principle over the kind codes, from which the lemmas
about request commands follow without unfolding `decodeRequest`. -/

namespace Sys2Proof

/-- To show something of every request frame and the command it decodes to, show it of each kind code with the body its
reader gives, of MODE_SET with each of its two commands, and of UNKNOWN. -/
theorem decodeRequest_cases {motive : RequestFrame → Instr → Prop}
    (xpAdd : ∀ tag f, motive ⟨tag, 0x10#8, f⟩ (.xpAdd tag (readAll readXpAdd f)))
    (xpRemove : ∀ tag f, motive ⟨tag, 0x11#8, f⟩ (.xpRemove tag (readAll readPair f)))
    (xpGain : ∀ tag f, motive ⟨tag, 0x12#8, f⟩ (.xpGain tag (readAll readXpGain f)))
    (xpMute : ∀ tag f, motive ⟨tag, 0x13#8, f⟩ (.xpMute tag (readAll readXpMute f)))
    (xpRamp : ∀ tag f, motive ⟨tag, 0x14#8, f⟩ (.xpRamp tag (readAll readXpRamp f)))
    (xpRead : ∀ tag f, motive ⟨tag, 0x15#8, f⟩ (.xpRead tag (readAll readPair f)))
    (patchList : ∀ tag f, motive ⟨tag, 0x16#8, f⟩ (.patchList tag (readAll readPatchList f)))
    (patchCommit : ∀ tag f, motive ⟨tag, 0x17#8, f⟩ (.patchCommit tag (readAll readNothing f)))
    (patchDiscard : ∀ tag f, motive ⟨tag, 0x18#8, f⟩ (.patchDiscard tag (readAll readNothing f)))
    (ruleWrite : ∀ tag f, motive ⟨tag, 0x20#8, f⟩ (.ruleWrite tag (readAll readRuleWrite f)))
    (ruleRead : ∀ tag f, motive ⟨tag, 0x21#8, f⟩ (.ruleRead tag (readAll (readNat 2) f)))
    (ruleBlocks : ∀ tag f, motive ⟨tag, 0x22#8, f⟩ (.ruleBlocks tag (readAll readRuleBlocks f)))
    (lawWrite : ∀ tag f, motive ⟨tag, 0x23#8, f⟩ (.lawWrite tag (readAll readLawWrite f)))
    (lawRead : ∀ tag f, motive ⟨tag, 0x24#8, f⟩ (.lawRead tag (readAll (readNat 1) f)))
    (surfaceSend : ∀ tag f, motive ⟨tag, 0x30#8, f⟩ (.surfaceSend tag (readAll readSurfaceSend f)))
    (surfaceStatus : ∀ tag f, motive ⟨tag, 0x31#8, f⟩ (.surfaceStatus tag (readAll (readNat 1) f)))
    (surfaceConfig : ∀ tag f, motive ⟨tag, 0x32#8, f⟩ (.surfaceConfig tag (readAll readSurfaceConfig f)))
    (linkConfig : ∀ tag f, motive ⟨tag, 0x40#8, f⟩ (.linkConfig tag (readAll readLinkConfig f)))
    (linkRestart : ∀ tag f, motive ⟨tag, 0x41#8, f⟩ (.linkRestart tag (readAll (readNat 1) f)))
    (linkPause : ∀ tag f, motive ⟨tag, 0x42#8, f⟩ (.linkPause tag (readAll (readNat 1) f)))
    (linkResume : ∀ tag f, motive ⟨tag, 0x43#8, f⟩ (.linkResume tag (readAll (readNat 1) f)))
    (linkStatus : ∀ tag f, motive ⟨tag, 0x44#8, f⟩ (.linkStatus tag (readAll (readNat 1) f)))
    (converterCommand : ∀ tag f, motive ⟨tag, 0x45#8, f⟩ (.converterCommand tag (readAll readConverterCommand f)))
    (clockCandidates : ∀ tag f, motive ⟨tag, 0x50#8, f⟩ (.clockCandidates tag (readAll readClockCandidates f)))
    (clockRate : ∀ tag f, motive ⟨tag, 0x51#8, f⟩ (.clockRate tag (readAll readClockRate f)))
    (clockStatus : ∀ tag f, motive ⟨tag, 0x52#8, f⟩ (.clockStatus tag (readAll readNothing f)))
    (wclkOut : ∀ tag f, motive ⟨tag, 0x53#8, f⟩ (.wclkOut tag (readAll readWclkOut f)))
    (meterPoints : ∀ tag f, motive ⟨tag, 0x60#8, f⟩ (.meterPoints tag (readAll readMeterPoints f)))
    (meterConfig : ∀ tag f, motive ⟨tag, 0x61#8, f⟩ (.meterConfig tag (readAll (readNat 1) f)))
    (meterThresholds : ∀ tag f, motive ⟨tag, 0x62#8, f⟩ (.meterThresholds tag (readAll (readMany (readNat 4) 16) f)))
    (uplinkConfig : ∀ tag f, motive ⟨tag, 0x71#8, f⟩ (.uplinkConfig tag (readAll readUplinkConfig f)))
    (deviceReset : ∀ tag f, motive ⟨tag, 0x72#8, f⟩ (.deviceReset tag (readAll readNothing f)))
    (deviceInfo : ∀ tag f, motive ⟨tag, 0x73#8, f⟩ (.deviceInfo tag (readAll readNothing f)))
    (storeWrite : ∀ tag f, motive ⟨tag, 0x74#8, f⟩ (.storeWrite tag (readAll readStoreWrite f)))
    (storeStatus : ∀ tag f, motive ⟨tag, 0x75#8, f⟩ (.storeStatus tag (readAll readNothing f)))
    (countersRead : ∀ tag f, motive ⟨tag, 0x76#8, f⟩ (.countersRead tag (readAll readCountersRead f)))
    (modeSetSetup : ∀ tag f, readAll (readNat 1) f ≠ some 1 →
      motive ⟨tag, 0x70#8, f⟩ (.modeSetSetup tag (readAll (readNat 1) f)))
    (modeSetOperate : ∀ tag f, readAll (readNat 1) f = some 1 → motive ⟨tag, 0x70#8, f⟩ (.modeSetOperate tag (some 1)))
    (unknown : ∀ tag kind f, motive ⟨tag, kind, f⟩ (.unknown tag kind)) :
    ∀ r, motive r (decodeRequest r) := by
  rintro ⟨tag, kind, f⟩
  by_cases h10 : kind = 0x10#8
  · subst h10; exact xpAdd tag f
  by_cases h11 : kind = 0x11#8
  · subst h11; exact xpRemove tag f
  by_cases h12 : kind = 0x12#8
  · subst h12; exact xpGain tag f
  by_cases h13 : kind = 0x13#8
  · subst h13; exact xpMute tag f
  by_cases h14 : kind = 0x14#8
  · subst h14; exact xpRamp tag f
  by_cases h15 : kind = 0x15#8
  · subst h15; exact xpRead tag f
  by_cases h16 : kind = 0x16#8
  · subst h16; exact patchList tag f
  by_cases h17 : kind = 0x17#8
  · subst h17; exact patchCommit tag f
  by_cases h18 : kind = 0x18#8
  · subst h18; exact patchDiscard tag f
  by_cases h20 : kind = 0x20#8
  · subst h20; exact ruleWrite tag f
  by_cases h21 : kind = 0x21#8
  · subst h21; exact ruleRead tag f
  by_cases h22 : kind = 0x22#8
  · subst h22; exact ruleBlocks tag f
  by_cases h23 : kind = 0x23#8
  · subst h23; exact lawWrite tag f
  by_cases h24 : kind = 0x24#8
  · subst h24; exact lawRead tag f
  by_cases h30 : kind = 0x30#8
  · subst h30; exact surfaceSend tag f
  by_cases h31 : kind = 0x31#8
  · subst h31; exact surfaceStatus tag f
  by_cases h32 : kind = 0x32#8
  · subst h32; exact surfaceConfig tag f
  by_cases h40 : kind = 0x40#8
  · subst h40; exact linkConfig tag f
  by_cases h41 : kind = 0x41#8
  · subst h41; exact linkRestart tag f
  by_cases h42 : kind = 0x42#8
  · subst h42; exact linkPause tag f
  by_cases h43 : kind = 0x43#8
  · subst h43; exact linkResume tag f
  by_cases h44 : kind = 0x44#8
  · subst h44; exact linkStatus tag f
  by_cases h45 : kind = 0x45#8
  · subst h45; exact converterCommand tag f
  by_cases h50 : kind = 0x50#8
  · subst h50; exact clockCandidates tag f
  by_cases h51 : kind = 0x51#8
  · subst h51; exact clockRate tag f
  by_cases h52 : kind = 0x52#8
  · subst h52; exact clockStatus tag f
  by_cases h53 : kind = 0x53#8
  · subst h53; exact wclkOut tag f
  by_cases h60 : kind = 0x60#8
  · subst h60; exact meterPoints tag f
  by_cases h61 : kind = 0x61#8
  · subst h61; exact meterConfig tag f
  by_cases h62 : kind = 0x62#8
  · subst h62; exact meterThresholds tag f
  by_cases h71 : kind = 0x71#8
  · subst h71; exact uplinkConfig tag f
  by_cases h72 : kind = 0x72#8
  · subst h72; exact deviceReset tag f
  by_cases h73 : kind = 0x73#8
  · subst h73; exact deviceInfo tag f
  by_cases h74 : kind = 0x74#8
  · subst h74; exact storeWrite tag f
  by_cases h75 : kind = 0x75#8
  · subst h75; exact storeStatus tag f
  by_cases h76 : kind = 0x76#8
  · subst h76; exact countersRead tag f
  by_cases h70 : kind = 0x70#8
  · subst h70
    by_cases h : readAll (readNat 1) f = some 1
    · have e : decodeRequest ⟨tag, 0x70#8, f⟩ = .modeSetOperate tag (some 1) := by
        show (if readAll (readNat 1) f = some 1 then _ else _) = _
        rw [if_pos h, h]
      rw [e]
      exact modeSetOperate tag f h
    · have e : decodeRequest ⟨tag, 0x70#8, f⟩ = .modeSetSetup tag (readAll (readNat 1) f) := by
        show (if readAll (readNat 1) f = some 1 then _ else _) = _
        rw [if_neg h]
      rw [e]
      exact modeSetSetup tag f h
  have ne : ∀ n < 256, kind ≠ BitVec.ofNat 8 n → kind.toNat ≠ n := by
    intro n hn h e
    apply h
    rw [← e]
    simp
  have e : decodeRequest ⟨tag, kind, f⟩ = .unknown tag kind := by
    unfold decodeRequest
    dsimp only
    rw [if_neg (ne 0x10 (by decide) h10),
      if_neg (ne 0x11 (by decide) h11),
      if_neg (ne 0x12 (by decide) h12),
      if_neg (ne 0x13 (by decide) h13),
      if_neg (ne 0x14 (by decide) h14),
      if_neg (ne 0x15 (by decide) h15),
      if_neg (ne 0x16 (by decide) h16),
      if_neg (ne 0x17 (by decide) h17),
      if_neg (ne 0x18 (by decide) h18),
      if_neg (ne 0x20 (by decide) h20),
      if_neg (ne 0x21 (by decide) h21),
      if_neg (ne 0x22 (by decide) h22),
      if_neg (ne 0x23 (by decide) h23),
      if_neg (ne 0x24 (by decide) h24),
      if_neg (ne 0x30 (by decide) h30),
      if_neg (ne 0x31 (by decide) h31),
      if_neg (ne 0x32 (by decide) h32),
      if_neg (ne 0x40 (by decide) h40),
      if_neg (ne 0x41 (by decide) h41),
      if_neg (ne 0x42 (by decide) h42),
      if_neg (ne 0x43 (by decide) h43),
      if_neg (ne 0x44 (by decide) h44),
      if_neg (ne 0x45 (by decide) h45),
      if_neg (ne 0x50 (by decide) h50),
      if_neg (ne 0x51 (by decide) h51),
      if_neg (ne 0x52 (by decide) h52),
      if_neg (ne 0x53 (by decide) h53),
      if_neg (ne 0x60 (by decide) h60),
      if_neg (ne 0x61 (by decide) h61),
      if_neg (ne 0x62 (by decide) h62),
      if_neg (ne 0x70 (by decide) h70),
      if_neg (ne 0x71 (by decide) h71),
      if_neg (ne 0x72 (by decide) h72),
      if_neg (ne 0x73 (by decide) h73),
      if_neg (ne 0x74 (by decide) h74),
      if_neg (ne 0x75 (by decide) h75),
      if_neg (ne 0x76 (by decide) h76)]
  rw [e]
  exact unknown tag kind f

namespace Machine

/-- The command of a request frame is a taking under its tag and kind code, by one owner (R170). -/
theorem exec_decodeRequest (r : RequestFrame) :
    ∃ owner : Owner, ∀ s, exec (decodeRequest r) s = act (takeRequest (decodeRequest r) r.tag r.kind owner) s := by
  refine decodeRequest_cases
    (motive := fun r i => ∃ owner : Owner, ∀ s, exec i s = act (takeRequest i r.tag r.kind owner) s) ?_ ?_ ?_ ?_ ?_ ?_ ?_ ?_ ?_ ?_ ?_ ?_ ?_ ?_ ?_ ?_ ?_ ?_ ?_ ?_ ?_ ?_ ?_ ?_ ?_ ?_ ?_ ?_ ?_ ?_ ?_ ?_ ?_ ?_ ?_ ?_ ?_ ?_ ?_ r
  all_goals intros; exact ⟨_, fun _ => rfl⟩

end Machine

end Sys2Proof
end

