-- ==== Sys2Proof/Laws/PerInstr.lean ====
section
/-! SUPPORT. One law for each command: a request frame that decodes to it carries its tag and its kind code (R170, R191), and
no request frame decodes to an event. -/

namespace Sys2Proof.Laws.RequestKind

/-- The tag and kind code of a request command; an event has none. -/
def tagAndKind : Instr → Option (Byte × Byte)
  | .powerOn => none
  | .powerLoss => none
  | .samplePeriod => none
  | .blockBoundary => none
  | .wclkOutLatch _ => none
  | .upBlockSent => none
  | .commitApply => none
  | .rateChange => none
  | .uplinkConfigEffect => none
  | .resetBoundary => none
  | .uplinkLoss => none
  | .fallbackDecision => none
  | .downBlock _ => none
  | .request _ => none
  | .badFrame => none
  | .unknown tag kind => some (tag, kind)
  | .xpAdd tag _ => some (tag, 0x10#8)
  | .xpRemove tag _ => some (tag, 0x11#8)
  | .xpGain tag _ => some (tag, 0x12#8)
  | .xpMute tag _ => some (tag, 0x13#8)
  | .xpRamp tag _ => some (tag, 0x14#8)
  | .xpRead tag _ => some (tag, 0x15#8)
  | .patchList tag _ => some (tag, 0x16#8)
  | .patchCommit tag _ => some (tag, 0x17#8)
  | .patchDiscard tag _ => some (tag, 0x18#8)
  | .ruleWrite tag _ => some (tag, 0x20#8)
  | .ruleRead tag _ => some (tag, 0x21#8)
  | .ruleBlocks tag _ => some (tag, 0x22#8)
  | .lawWrite tag _ => some (tag, 0x23#8)
  | .lawRead tag _ => some (tag, 0x24#8)
  | .surfaceSend tag _ => some (tag, 0x30#8)
  | .surfaceStatus tag _ => some (tag, 0x31#8)
  | .surfaceConfig tag _ => some (tag, 0x32#8)
  | .linkConfig tag _ => some (tag, 0x40#8)
  | .linkRestart tag _ => some (tag, 0x41#8)
  | .linkPause tag _ => some (tag, 0x42#8)
  | .linkResume tag _ => some (tag, 0x43#8)
  | .linkStatus tag _ => some (tag, 0x44#8)
  | .converterCommand tag _ => some (tag, 0x45#8)
  | .clockCandidates tag _ => some (tag, 0x50#8)
  | .clockRate tag _ => some (tag, 0x51#8)
  | .clockStatus tag _ => some (tag, 0x52#8)
  | .wclkOut tag _ => some (tag, 0x53#8)
  | .meterPoints tag _ => some (tag, 0x60#8)
  | .meterConfig tag _ => some (tag, 0x61#8)
  | .meterThresholds tag _ => some (tag, 0x62#8)
  | .modeSetSetup tag _ => some (tag, 0x70#8)
  | .modeSetOperate tag _ => some (tag, 0x70#8)
  | .uplinkConfig tag _ => some (tag, 0x71#8)
  | .deviceReset tag _ => some (tag, 0x72#8)
  | .deviceInfo tag _ => some (tag, 0x73#8)
  | .storeWrite tag _ => some (tag, 0x74#8)
  | .storeStatus tag _ => some (tag, 0x75#8)
  | .countersRead tag _ => some (tag, 0x76#8)
  | .storeWriteComplete => none
  | .frameStart _ _ _ => none
  | .converterFrame _ _ => none
  | .frameIncomplete _ => none
  | .missingFrame _ => none
  | .noSync _ => none
  | .holdOffExpiry _ => none
  | .commandTimeout _ => none
  | .wordclockEdge _ _ => none
  | .edgeLoss _ => none
  | .pullInCount => none
  | .holdoverExpiry => none
  | .hello _ _ _ => none
  | .keepalive _ => none
  | .position _ _ _ => none
  | .touch _ _ _ => none
  | .press _ _ _ => none
  | .turn _ _ _ => none
  | .malformedMessage _ _ => none
  | .messageIncomplete _ => none
  | .silenceTimerExpiry _ => none
  | .sendIntervalExpiry _ => none
  | .meterReport => none
  | .meterPromotion => none
  | .arbiterChoice => none
  | .messageFrameEnd => none

/-- Every request frame that decodes to the command carries its tag and kind code. -/
def Statement (i : Instr) : Prop := ∀ r : RequestFrame, decodeRequest r = i → tagAndKind i = some (r.tag, r.kind)

theorem of_decodeRequest (r : RequestFrame) : tagAndKind (decodeRequest r) = some (r.tag, r.kind) := by
  refine decodeRequest_cases (motive := fun r i => tagAndKind i = some (r.tag, r.kind)) ?_ ?_ ?_ ?_ ?_ ?_ ?_ ?_ ?_ ?_ ?_ ?_
    ?_ ?_ ?_ ?_ ?_ ?_ ?_ ?_ ?_ ?_ ?_ ?_ ?_ ?_ ?_ ?_ ?_ ?_ ?_ ?_ ?_ ?_ ?_ ?_ ?_ ?_ ?_ r
  all_goals intros; rfl

theorem statement (i : Instr) : Statement i := fun r h => h ▸ of_decodeRequest r

theorem powerOn : Statement .powerOn := statement _
theorem powerLoss : Statement .powerLoss := statement _
theorem samplePeriod : Statement .samplePeriod := statement _
theorem blockBoundary : Statement .blockBoundary := statement _
theorem wclkOutLatch (output : Fin 2) : Statement (.wclkOutLatch output) := statement _
theorem upBlockSent : Statement .upBlockSent := statement _
theorem commitApply : Statement .commitApply := statement _
theorem rateChange : Statement .rateChange := statement _
theorem uplinkConfigEffect : Statement .uplinkConfigEffect := statement _
theorem resetBoundary : Statement .resetBoundary := statement _
theorem uplinkLoss : Statement .uplinkLoss := statement _
theorem fallbackDecision : Statement .fallbackDecision := statement _
theorem downBlock (b : DownBlock) : Statement (.downBlock b) := statement _
theorem request (r : RequestFrame) : Statement (.request r) := statement _
theorem badFrame : Statement .badFrame := statement _
theorem unknown (tag kind : Byte) : Statement (.unknown tag kind) := statement _
theorem xpAdd (tag : Byte) (body : Option XpAddBody) : Statement (.xpAdd tag body) := statement _
theorem xpRemove (tag : Byte) (body : Option PairBody) : Statement (.xpRemove tag body) := statement _
theorem xpGain (tag : Byte) (body : Option XpGainBody) : Statement (.xpGain tag body) := statement _
theorem xpMute (tag : Byte) (body : Option XpMuteBody) : Statement (.xpMute tag body) := statement _
theorem xpRamp (tag : Byte) (body : Option XpRampBody) : Statement (.xpRamp tag body) := statement _
theorem xpRead (tag : Byte) (body : Option PairBody) : Statement (.xpRead tag body) := statement _
theorem patchList (tag : Byte) (body : Option PatchListBody) : Statement (.patchList tag body) := statement _
theorem patchCommit (tag : Byte) (body : Option Unit) : Statement (.patchCommit tag body) := statement _
theorem patchDiscard (tag : Byte) (body : Option Unit) : Statement (.patchDiscard tag body) := statement _
theorem ruleWrite (tag : Byte) (body : Option RuleWriteBody) : Statement (.ruleWrite tag body) := statement _
theorem ruleRead (tag : Byte) (rule : Option Nat) : Statement (.ruleRead tag rule) := statement _
theorem ruleBlocks (tag : Byte) (body : Option RuleBlocksBody) : Statement (.ruleBlocks tag body) := statement _
theorem lawWrite (tag : Byte) (body : Option LawWriteBody) : Statement (.lawWrite tag body) := statement _
theorem lawRead (tag : Byte) (start : Option Nat) : Statement (.lawRead tag start) := statement _
theorem surfaceSend (tag : Byte) (body : Option SurfaceSendBody) : Statement (.surfaceSend tag body) := statement _
theorem surfaceStatus (tag : Byte) (link : Option Nat) : Statement (.surfaceStatus tag link) := statement _
theorem surfaceConfig (tag : Byte) (body : Option SurfaceConfigBody) : Statement (.surfaceConfig tag body) :=
    statement _
theorem linkConfig (tag : Byte) (body : Option LinkConfigBody) : Statement (.linkConfig tag body) := statement _
theorem linkRestart (tag : Byte) (link : Option Nat) : Statement (.linkRestart tag link) := statement _
theorem linkPause (tag : Byte) (link : Option Nat) : Statement (.linkPause tag link) := statement _
theorem linkResume (tag : Byte) (link : Option Nat) : Statement (.linkResume tag link) := statement _
theorem linkStatus (tag : Byte) (link : Option Nat) : Statement (.linkStatus tag link) := statement _
theorem converterCommand (tag : Byte) (body : Option ConverterCommandBody) : Statement (.converterCommand tag body) :=
    statement _
theorem clockCandidates (tag : Byte) (body : Option ClockCandidatesBody) : Statement (.clockCandidates tag body) :=
    statement _
theorem clockRate (tag : Byte) (body : Option ClockRateBody) : Statement (.clockRate tag body) := statement _
theorem clockStatus (tag : Byte) (body : Option Unit) : Statement (.clockStatus tag body) := statement _
theorem wclkOut (tag : Byte) (body : Option WclkOutBody) : Statement (.wclkOut tag body) := statement _
theorem meterPoints (tag : Byte) (body : Option MeterPointsBody) : Statement (.meterPoints tag body) := statement _
theorem meterConfig (tag : Byte) (interval : Option Nat) : Statement (.meterConfig tag interval) := statement _
theorem meterThresholds (tag : Byte) (entries : Option (List Nat)) : Statement (.meterThresholds tag entries) :=
    statement _
theorem modeSetSetup (tag : Byte) (mode : Option Nat) : Statement (.modeSetSetup tag mode) := statement _
theorem modeSetOperate (tag : Byte) (mode : Option Nat) : Statement (.modeSetOperate tag mode) := statement _
theorem uplinkConfig (tag : Byte) (body : Option UplinkConfigBody) : Statement (.uplinkConfig tag body) := statement _
theorem deviceReset (tag : Byte) (body : Option Unit) : Statement (.deviceReset tag body) := statement _
theorem deviceInfo (tag : Byte) (body : Option Unit) : Statement (.deviceInfo tag body) := statement _
theorem storeWrite (tag : Byte) (body : Option StoreWriteBody) : Statement (.storeWrite tag body) := statement _
theorem storeStatus (tag : Byte) (body : Option Unit) : Statement (.storeStatus tag body) := statement _
theorem countersRead (tag : Byte) (body : Option CountersReadBody) : Statement (.countersRead tag body) := statement _
theorem storeWriteComplete : Statement .storeWriteComplete := statement _
theorem frameStart (link : Fin 8) (phase : Nat) (countFirst : Bool) : Statement (.frameStart link phase countFirst) :=
    statement _
theorem converterFrame (link : Fin 8) (bytes : List Byte) : Statement (.converterFrame link bytes) := statement _
theorem frameIncomplete (link : Fin 8) : Statement (.frameIncomplete link) := statement _
theorem missingFrame (link : Fin 8) : Statement (.missingFrame link) := statement _
theorem noSync (link : Fin 8) : Statement (.noSync link) := statement _
theorem holdOffExpiry (link : Fin 8) : Statement (.holdOffExpiry link) := statement _
theorem commandTimeout (link : Fin 8) : Statement (.commandTimeout link) := statement _
theorem wordclockEdge (phase : Nat) (countFirst : Bool) : Statement (.wordclockEdge phase countFirst) := statement _
theorem edgeLoss (candidate : Reference) : Statement (.edgeLoss candidate) := statement _
theorem pullInCount : Statement .pullInCount := statement _
theorem holdoverExpiry : Statement .holdoverExpiry := statement _
theorem hello (link : Fin 4) (address value : Nat) : Statement (.hello link address value) := statement _
theorem keepalive (link : Fin 4) : Statement (.keepalive link) := statement _
theorem position (link : Fin 4) (address value : Nat) : Statement (.position link address value) := statement _
theorem touch (link : Fin 4) (address value : Nat) : Statement (.touch link address value) := statement _
theorem press (link : Fin 4) (address value : Nat) : Statement (.press link address value) := statement _
theorem turn (link : Fin 4) (address : Nat) (value : Int) : Statement (.turn link address value) := statement _
theorem malformedMessage (link : Fin 4) (cause : Malformed) : Statement (.malformedMessage link cause) := statement _
theorem messageIncomplete (link : Fin 4) : Statement (.messageIncomplete link) := statement _
theorem silenceTimerExpiry (link : Fin 4) : Statement (.silenceTimerExpiry link) := statement _
theorem sendIntervalExpiry (link : Fin 4) : Statement (.sendIntervalExpiry link) := statement _
theorem meterReport : Statement .meterReport := statement _
theorem meterPromotion : Statement .meterPromotion := statement _
theorem arbiterChoice : Statement .arbiterChoice := statement _
theorem messageFrameEnd : Statement .messageFrameEnd := statement _

end Sys2Proof.Laws.RequestKind
end

