-- ==== Sys2Proof/Laws/Period.lean ====
section
/-! SUPPORT. What the start of a sample period leaves of each link, and the arithmetic of the lengths of sample periods. -/

namespace Sys2Proof.Machine

/-! ### Lengths (R86) -/

/-- The length nearest to one period is its argument but for whole periods, above half a period and at most one and a
half. -/
theorem nearOnePeriod_spec {p : Nat} (h : 0 < p) (d : Int) :
    (∃ n : Int, nearOnePeriod p d = d + n * p) ∧ (p : Int) < 2 * nearOnePeriod p d ∧ 2 * nearOnePeriod p d ≤ 3 * p := by
  have hp : (0 : Int) < 2 * p := by omega
  have below := Int.ediv_mul_le (3 * p - 2 * d) (b := 2 * (p : Int)) (by omega)
  have above := Int.lt_ediv_add_one_mul_self (3 * p - 2 * d) hp
  refine ⟨⟨_, rfl⟩, ?_, ?_⟩ <;> unfold nearOnePeriod <;> nlinarith

/-- An argument that is one period already is kept. -/
theorem nearOnePeriod_self {p : Nat} (h : 0 < p) : nearOnePeriod p p = p := by
  unfold nearOnePeriod
  have : (3 * (p : Int) - 2 * p) / (2 * p) = 0 := Int.ediv_eq_zero_of_lt (by omega) (by omega)
  rw [this]; simp

/-- The time between two edges with none missed between them, within half a nominal period of it, is the period itself. -/
theorem edgePeriod_single {mult : Mult} {d : Nat} (low : nominalTicks mult ≤ 2 * d)
    (high : 2 * d < 3 * nominalTicks mult) : edgePeriod mult d = d := by
  unfold edgePeriod
  have : (2 * d + nominalTicks mult) / (2 * nominalTicks mult) = 1 := by
    rw [Nat.div_eq_iff (by cases mult <;> decide)]; constructor <;> cases mult <;> simp [nominalTicks] at * <;> omega
  rw [this]; simp

theorem steeredLength_bounds (a b n : Nat) : min a b ≤ steeredLength a b n ∧ steeredLength a b n ≤ max a b := by
  have := Nat.mod_lt (Config.steering n) (show 0 < max a b - min a b + 1 by omega)
  unfold steeredLength; omega

/-- A run of HOLDOVER that can still hold its share of longer periods can after the next period too. -/
theorem holdoverLong_share {m periods long n : Nat} (h : periods < 64) (fits : long ≤ m % 64)
    (room : m % 64 + periods ≤ 64 + long) :
    long + (holdoverLong m periods long n).toNat ≤ m % 64 ∧
      m % 64 + (periods + 1) ≤ 64 + (long + (holdoverLong m periods long n).toNat) := by
  unfold holdoverLong
  split
  · simp; omega
  · split
    · simp; omega
    · cases Config.longPeriod n <;> simp <;> omega

/-! ### The links as a sample period starts -/

/-- Updates of the links of a list, one after the other, are made once on each of them. -/
theorem foldl_onLink_mem (f : Fin 8 → Link → Link) (j : Fin 8) (l : List (Fin 8)) (distinct : l.Nodup) (s : State) :
    (l.foldl (fun t i => t.onLink i (f i)) s).links[j] = if j ∈ l then f j s.links[j] else s.links[j] := by
  induction l generalizing s with
  | nil => rfl
  | cons i is ih =>
    obtain ⟨absent, rest⟩ := List.nodup_cons.mp distinct
    rw [List.foldl_cons, ih rest]
    by_cases h : j = i
    · subst h
      rw [if_neg absent, if_pos (List.mem_cons_self ..)]
      exact modifyEntry_same _ _ _
    · have other : (s.onLink i (f i)).links[j] = s.links[j] := modifyEntry_other _ _ _ _ (Ne.symm h)
      rw [other]
      simp [h]

/-- They change nothing but the links. -/
theorem foldl_onLink_eq (f : Fin 8 → Link → Link) (l : List (Fin 8)) (s : State) :
    l.foldl (fun t i => t.onLink i (f i)) s =
      { s with links := (l.foldl (fun t i => t.onLink i (f i)) s).links } := by
  induction l generalizing s with
  | nil => rfl
  | cons i is ih => rw [List.foldl_cons, ih]; rfl

theorem linkNumbers_nodup : linkNumbers.Nodup := by decide
theorem mem_linkNumbers (i : Fin 8) : i ∈ linkNumbers := by revert i; decide

/-- The counts of every link at the end of a frame period. -/
theorem endLinks_link (s : State) (j : Fin 8) : (endLinks s).links[j] = s.links[j].endPeriod := by
  unfold endLinks
  rw [foldl_onLink_mem (fun _ => Link.endPeriod) j linkNumbers linkNumbers_nodup s, if_pos (mem_linkNumbers j)]

theorem endLinks_eq (s : State) : endLinks s = { s with links := (endLinks s).links } := foldl_onLink_eq _ _ s

/-- The links' part of a sample period reads the rate and the outputs, which it leaves as they were. -/
theorem foldl_startLinkPeriod (l : List (Fin 8)) (s : State) :
    l.foldl (fun t i => startLinkPeriod i t) s = l.foldl (fun t i => t.onLink i fun x =>
      ((x.present (slotsPerLink s.gen.rate.mult)).sendFrame s.gen.rate
        fun k => (s.engine.outputs)[i.val * 32 + k]?.getD 0).openWindow) s := by
  suffices ∀ t : State, t.gen = s.gen → t.engine = s.engine →
      l.foldl (fun t i => startLinkPeriod i t) t = l.foldl (fun t i => t.onLink i fun x =>
        ((x.present (slotsPerLink s.gen.rate.mult)).sendFrame s.gen.rate
          fun k => (s.engine.outputs)[i.val * 32 + k]?.getD 0).openWindow) t from this s rfl rfl
  induction l with
  | nil => intros; rfl
  | cons i is ih =>
    intro t hg he
    rw [List.foldl_cons, List.foldl_cons]
    have step : startLinkPeriod i t = t.onLink i fun x =>
        ((x.present (slotsPerLink s.gen.rate.mult)).sendFrame s.gen.rate
          fun k => (s.engine.outputs)[i.val * 32 + k]?.getD 0).openWindow := by
      unfold startLinkPeriod; rw [hg, he]
    rw [step]
    exact ih _ hg he

/-- A link of the sample period that starts: its inputs, its frame and its window. -/
theorem startLinks_link (s : State) (j : Fin 8) :
    (startLinks s).links[j] = ((s.links[j].present (slotsPerLink s.gen.rate.mult)).sendFrame s.gen.rate
      fun k => (s.engine.outputs)[j.val * 32 + k]?.getD 0).openWindow := by
  unfold startLinks
  rw [foldl_startLinkPeriod, foldl_onLink_mem (fun i x =>
    ((x.present (slotsPerLink s.gen.rate.mult)).sendFrame s.gen.rate
      fun k => (s.engine.outputs)[i.val * 32 + k]?.getD 0).openWindow) j linkNumbers linkNumbers_nodup s,
    if_pos (mem_linkNumbers j)]

theorem startLinks_eq (s : State) : startLinks s = { s with links := (startLinks s).links } := by
  unfold startLinks; rw [foldl_startLinkPeriod]; exact foldl_onLink_eq _ _ s

/-- Presenting changes the frame periods, the presented values and the counters of a link. -/
theorem Link.present_eq (slots : Nat) (l : Link) :
    l.present slots = { l with
      frames := (l.present slots).frames, presented := (l.present slots).presented
      counters := (l.present slots).counters } := by
  unfold Link.present; dsimp only; split <;> rfl

/-- Sending changes the frame sent, its sequence number and the relay. -/
theorem Link.sendFrame_eq (rate : Rate) (ys : Nat → Int) (l : Link) :
    l.sendFrame rate ys = { l with
      txFrame := (l.sendFrame rate ys).txFrame, txSequence := (l.sendFrame rate ys).txSequence
      relay := (l.sendFrame rate ys).relay } := by
  unfold Link.sendFrame; split <;> rfl

/-- A window opens where the link receives. -/
theorem Link.openWindow_eq (l : Link) :
    l.openWindow = { l with frames := l.frames ++ if l.state.receives then [⟨0, .unstarted⟩] else [] } := by
  unfold Link.openWindow; split
  · rfl
  · rw [List.append_nil]

/-- What is presented, by the link as the period before left it (R62). -/
theorem Link.present_of (slots : Nat) (l : Link) (p : Presentation)
    (due : ({ l with frames := l.frames.map FramePeriod.grow } : Link).presentation = some p) :
    (l.present slots).presented = presentedValues slots l.mask p ∧
      (l.present slots).counters = if p.active then
        match p.choice with
        | .good => l.counters
        | .repeated => { l.counters with concealed := bump32 l.counters.concealed }
        | .silent => { l.counters with silenced := bump32 l.counters.silenced }
      else l.counters := by
  unfold Link.present; dsimp only; rw [due]; exact ⟨rfl, rfl⟩

/-- Nothing is presented where no judged frame period falls due. -/
theorem Link.present_of_none (slots : Nat) (l : Link)
    (due : ({ l with frames := l.frames.map FramePeriod.grow } : Link).presentation = none) :
    (l.present slots).presented = Vector.replicate 32 0 ∧ (l.present slots).counters = l.counters := by
  unfold Link.present; dsimp only; rw [due]; exact ⟨rfl, rfl⟩

/-! ### The parts of SAMPLE_PERIOD -/

/-- The start of a sample period, before its work, as one update. -/
theorem startPeriod_eq (s : State) :
    startPeriod s =
      { s with
        links := (endLinks s).links, gen := s.gen.advance s.boundary.taken s.device.mode
        clock := s.clock.advance s.gen.rate s.free, boundary := Boundary.none, free := s.free + 1 } := by
  unfold startPeriod; rw [endLinks_eq s]

/-- The meter unit's part changes nothing else. -/
theorem meterPeriod_eq (before after : State) :
    meterPeriod before after = { after with meter := (meterPeriod before after).meter } := by
  unfold meterPeriod; split <;> rfl

/-- The work of a sample period as one update. -/
theorem periodWork_eq (s : State) :
    periodWork s =
      let stepped := stepRamps (startLinks s)
      { s with
        links := (startLinks s).links, engine := (mixPeriod stepped).engine
        meter := (meterPeriod stepped (mixPeriod stepped)).meter
        mgmt := (gatherRow (mixPeriod stepped)).mgmt } := by
  unfold periodWork
  dsimp only
  rw [meterPeriod_eq]
  unfold gatherRow State.onMgmt mixPeriod State.onEngine stepRamps State.onEngine
  rw [startLinks_eq s]

/-- The links of the sample period that starts after `s`. -/
theorem work_link (s : State) (j : Fin 8) :
    (periodWork (startPeriod s)).links[j] =
      ((s.links[j].endPeriod.present (slotsPerLink s.gen.rate.mult)).sendFrame s.gen.rate
        fun k => (s.engine.outputs)[j.val * 32 + k]?.getD 0).openWindow := by
  have links : (periodWork (startPeriod s)).links = (startLinks (startPeriod s)).links := by rw [periodWork_eq]
  have started : (startPeriod s).links[j] = s.links[j].endPeriod := by rw [startPeriod_eq]; exact endLinks_link s j
  rw [links, startLinks_link, started, startPeriod_eq]
  rfl

/-- SAMPLE_PERIOD, by the state `w` in which what has to come about by the end of the period before has come about. -/
theorem nextSample_of {s w : State} (h : settle s = w) : nextSample s = periodWork (startPeriod w) := by rw [← h]; rfl

/-- The clock unit of the sample period that starts after `s`. -/
theorem work_clock (s : State) :
    (periodWork (startPeriod s)).clock = s.clock.advance s.gen.rate s.free := by rw [periodWork_eq, startPeriod_eq]

/-- The frame generator of the sample period that starts after `s`. -/
theorem work_gen (s : State) :
    (periodWork (startPeriod s)).gen = s.gen.advance s.boundary.taken s.device.mode := by
  rw [periodWork_eq, startPeriod_eq]

/-! ### The end of a sample period -/

/-- Taking a request leaves the frame generator, the boundary in progress and the free values alone. -/
theorem takeDecoded_touches (i : Instr) (s : State) :
    Touches [.clock, .links, .uplink, .engine, .surfaces, .rules, .meter, .mgmt, .device] s (takeDecoded i s) := by
  have take (c : Instr) (tag kind : Byte) (owner : Owner) (parts : List Part)
      (sub : parts ⊆ [.clock, .links, .uplink, .engine, .surfaces, .rules, .meter, .mgmt, .device])
      (owns : ∀ t, Touches parts t (owner t).1) :
      Touches [.clock, .links, .uplink, .engine, .surfaces, .rules, .meter, .mgmt, .device] s
        (takeRequest c tag kind owner s) :=
    takeRequest_touches (by simp) (by simp) _ _ _ _ (fun t => (owns t).mono sub) s
  cases i
  all_goals first
    | exact Touches.refl _ s
    | exact take _ _ _ _ [] (by simp) (fun t => Touches.refl _ t)
    | exact take _ _ _ _ _ (by simp) ownUnknown_touches
    | exact take _ _ _ _ _ (by simp) (ownXpAdd_touches _)
    | exact take _ _ _ _ _ (by simp) (ownXpRemove_touches _)
    | exact take _ _ _ _ _ (by simp) (ownXpGain_touches _)
    | exact take _ _ _ _ _ (by simp) (ownXpMute_touches _)
    | exact take _ _ _ _ _ (by simp) (ownXpRamp_touches _)
    | exact take _ _ _ _ _ (by simp) (ownPatchCommit_touches _ _)
    | exact take _ _ _ _ _ (by simp) (ownPatchDiscard_touches _)
    | exact take _ _ _ _ _ (by simp) (ownRuleWrite_touches _)
    | exact take _ _ _ _ _ (by simp) (ownRuleBlocks_touches _)
    | exact take _ _ _ _ _ (by simp) (ownLawWrite_touches _)
    | exact take _ _ _ _ _ (by simp) (ownSurfaceSend_touches _)
    | exact take _ _ _ _ _ (by simp) (ownSurfaceConfig_touches _)
    | exact take _ _ _ _ _ (by simp) (ownLinkConfig_touches _)
    | exact take _ _ _ _ _ (by simp) (ownLinkRestart_touches _)
    | exact take _ _ _ _ _ (by simp) (ownLinkPause_touches _)
    | exact take _ _ _ _ _ (by simp) (ownLinkResume_touches _)
    | exact take _ _ _ _ _ (by simp) (ownConverterCommand_touches _ _)
    | exact take _ _ _ _ _ (by simp) (ownClockCandidates_touches _)
    | exact take _ _ _ _ _ (by simp) (ownClockRate_touches _)
    | exact take _ _ _ _ _ (by simp) (ownWclkOut_touches _)
    | exact take _ _ _ _ _ (by simp) (ownMeterPoints_touches _)
    | exact take _ _ _ _ _ (by simp) (ownMeterConfig_touches _)
    | exact take _ _ _ _ _ (by simp) (ownMeterThresholds_touches _)
    | exact take _ _ _ _ _ (by simp) (ownModeSet_touches _)
    | exact take _ _ _ _ _ (by simp) (ownUplinkConfig_touches _)
    | exact take _ _ _ _ _ (by simp) (ownDeviceReset_touches _)
    | exact take _ _ _ _ _ (by simp) (ownStoreWrite_touches _ _)
    | exact take _ _ _ _ _ (by simp) (ownCountersRead_touches _)

theorem drainRequests_touches (n : Nat) (s : State) :
    Touches [.clock, .links, .uplink, .engine, .surfaces, .rules, .meter, .mgmt, .device] s (drainRequests n s) := by
  induction n generalizing s with
  | zero => exact Touches.refl _ s
  | succ n ih =>
    unfold drainRequests
    split
    · exact Touches.refl _ s
    · exact (takeDecoded_touches _ s).trans (ih _)

theorem settleLink_touches (s : State) (i : Fin 8) : Touches [.clock, .links, .mgmt] s (settleLink s i) :=
  ((((missFrame_touches i s).trans (loseFrame_touches i _)).trans (failAlign_touches i _)).trans
    ((expireHoldOff_touches i _).mono (by simp))).trans ((timeOutCommand_touches i _).mono (by simp))

theorem discardIncomplete_touches (i : Fin 4) (s : State) : Touches [.surfaces] s (discardIncomplete i s) := by
  unfold discardIncomplete
  split
  · exact discardRun_touches _ _ s
  · exact Touches.refl _ s

theorem settleSurface_touches (s : State) (i : Fin 4) : Touches [.engine, .surfaces, .mgmt] s (settleSurface s i) := by
  have assembly : Touches [.engine, .surfaces, .mgmt] s (expireAssembly i s) := by
    unfold expireAssembly
    split
    · exact Touches.refl _ s
    · exact (discardIncomplete_touches i s).mono (by simp)
  exact (assembly.trans (expireSilence_touches i _)).trans ((expireInterval_touches i _).mono (by simp))

theorem settleClock_touches (s : State) : Touches [.clock, .mgmt] s (settleClock s) :=
  ((Touches.foldl (fun t r => loseEdges_touches r t) _ s).trans (finishPullIn_touches _)).trans (expiryStep_touches _)

theorem settleStore_touches (s : State) : Touches [.mgmt, .device] s (settleStore s) := by
  unfold settleStore
  split
  · exact completeStore_touches s
  · exact Touches.refl _ s

/-- The end of a sample period leaves the frame generator, the boundary in progress and the free values alone. -/
theorem endPeriod_touches (s : State) :
    Touches [.clock, .links, .uplink, .engine, .surfaces, .rules, .meter, .mgmt, .device] s (endPeriod s) := by
  unfold endPeriod
  dsimp only
  refine Touches.trans ?_ ((latchOutput_touches 1 _).mono (by simp))
  refine Touches.trans ?_ ((latchOutput_touches 0 _).mono (by simp))
  refine Touches.trans ?_ ((settleStore_touches _).mono (by simp))
  refine Touches.trans ?_ ((Touches.foldl settleSurface_touches _ _).mono (by simp))
  refine Touches.trans ?_ ((settleClock_touches _).mono (by simp))
  refine Touches.trans ?_ ((Touches.foldl settleLink_touches _ _).mono (by simp))
  exact drainRequests_touches _ s

/-- After the end of a period at which a boundary falls, the state is at that boundary. -/
theorem closePeriod_taken (s : State) :
    (closePeriod s).boundary.taken = (s.boundary.taken || decide (s.gen.blockSize ≤ s.gen.position + 1)) := by
  unfold closePeriod
  split
  · next h => rw [h]; rfl
  · next h =>
    have kept := (endPeriod_touches s).boundary (by simp)
    have opened : (openBlock (endPeriod s)).boundary.taken = true := by
      unfold openBlock
      rw [(countLoss_touches _).boundary (by simp), (playTime_touches _ _).boundary (by simp)]
      rfl
    rw [Bool.not_eq_true] at h
    unfold boundaryDue
    split
    · next d => rw [opened, h, decide_eq_true (of_decide_eq_true d).2]; rfl
    · next d =>
      rw [kept, h, Bool.false_or, eq_comm, decide_eq_false_iff_not]
      exact fun c => d (decide_eq_true ⟨h, c⟩)

/-! ### The period a command falls in -/

/-- A sample period that has started is no block boundary. -/
theorem nextSample_taken (s : State) : (nextSample s).boundary.taken = false := by
  unfold nextSample; rw [periodWork_eq]; rfl

/-- A command is never taken at an open boundary. -/
theorem entered_taken (s : State) : (entered s).boundary.taken = false := by
  unfold entered
  split
  · exact nextSample_taken s
  · next h => simpa using h

end Sys2Proof.Machine
end

