-- ==== Sys2Proof/Machine/Wire.lean ====
section
/-! DEFINITION. What the part puts on its lines: the bytes of UP blocks, replies, notices and meter reports, of the part's
converter frames and of surface messages (12_frame_and_message_layouts.md, R191 to R197). Where R193 leaves the places to
the order of the owner's rule, log entry 19 says how that order was read. -/

namespace Sys2Proof.Machine

/-! ### Fields -/

/-- A yes/no field or a flag (R191, R193). -/
def yesNoByte (b : Bool) : List Byte := [if b then 1#8 else 0#8]

/-- A code field. -/
def codeByte (n : Nat) : List Byte := [BitVec.ofNat 8 n]

/-- An optional field of `size` bytes (R192). -/
def optionalField {α : Type} (size : Nat) (field : α → List Byte) : Option α → List Byte
  | none => 0#8 :: List.replicate size 0#8
  | some x => 1#8 :: field x

/-- A list sent as the count of its entries and then the entries (R193). -/
def listField {α : Type} (entry : α → List Byte) (l : List α) : List Byte :=
  codeByte l.length ++ l.flatMap entry

def pairBytes (src dst : Slot) : List Byte := toBytes 2 src.val ++ toBytes 2 dst.val

/-- A container, most significant byte first (R12, R191). -/
def containerBytes (y : Int) : List Byte := toBytes 4 (containerOf y).toNat

/-! ### Named values (R193) -/

def Mode.code : Mode → Nat
  | .setup => 0
  | .operate => 1

def Family.code : Family → Nat
  | .k48 => 0
  | .k44 => 1

def Mult.code : Mult → Nat
  | .x1 => 0
  | .x2 => 1
  | .x4 => 2

/-- A rate as one item: bit 4 family, bits 1–0 multiplier. -/
def Rate.code (r : Rate) : Nat := 16 * r.family.code + r.mult.code

def LinkState.code : LinkState → Nat
  | .off => 0
  | .align => 1
  | .active => 2
  | .paused => 3
  | .fault => 4

def Recovery.code : Recovery → Nat
  | .auto => 0
  | .manual => 1
  | .park => 2

def FaultReason.code : FaultReason → Nat
  | .noSync => 0
  | .errors => 1
  | .missing => 2

def RelayView.code : RelayView → Nat
  | .idle => 0
  | .sending => 1
  | .awaiting => 2

def referenceCode : Reference → Nat
  | .link n => n.val
  | .wordclock => 8
  | .internal => 9

def LockState.code : LockState → Nat
  | .free => 0
  | .pullIn => 1
  | .locked => 2
  | .holdover => 3

def Qualification.code : Qualification → Nat
  | .unqualified => 0
  | .qualifying => 1
  | .qualified => 2

def SurfaceState.code : SurfaceState → Nat
  | .silent => 0
  | .online => 1
  | .lost => 2

/-- The surface code of an inbound kind. -/
def MessageKind.code : MessageKind → Nat
  | .position => 1
  | .touch => 2
  | .press => 3
  | .turn => 4

/-- The surface code of an outbound kind. -/
def UpdateKind.code : UpdateKind → Nat
  | .setPosition => 8
  | .lamp => 9
  | .meter => 10

def Marker.code : Marker → Nat
  | .plain => 0
  | .pendingRemove => 1
  | .pendingAdd => 2

def Limit.code : Limit → Nat
  | .total => 0
  | .destination => 1

def UplinkState.code : UplinkState → Nat
  | .up => 0
  | .lost => 1

def UplinkAlarmKind.code : UplinkAlarmKind → Nat
  | .underrun => 0
  | .lost => 1
  | .returned => 2

def StoreName.code : StoreName → Nat
  | .empty => 0
  | .writing => 1
  | .valid => 2
  | .incomplete => 3

/-- Reply status codes. -/
def Status.code : Status → Nat
  | .ok => 0x00
  | .busy => 0x01
  | .range => 0x02
  | .notFound => 0x03
  | .exists_ => 0x04
  | .full => 0x05
  | .wrongMode => 0x06
  | .conflict => 0x07
  | .aborted => 0x08
  | .linkDown => 0x09
  | .timeout => 0x0A
  | .unknown => 0x0B

/-! ### Reply fields, from offset 4 -/

/-- An automation gain: coefficient and ramp code. -/
def automationBytes (a : Int × RampCode) : List Byte := coeffBytes a.1 ++ codeByte a.2.val

/-- XP_READ (R23). -/
def xpViewBytes (v : XpView) : List Byte :=
  codeByte v.marker.code ++ coeffBytes v.setGain ++ yesNoByte v.muted ++ codeByte v.ramp.val ++
    optionalField 4 coeffBytes v.current ++ optionalField 2 (toBytes 2) v.remaining ++ coeffBytes v.target ++
    optionalField 1 yesNoByte v.live ++ optionalField 1 (fun i : Fin 4 => codeByte i.val) v.owner ++
    optionalField 5 automationBytes v.automation ++ yesNoByte v.listSealed

/-- One record of PATCH_LIST (R24). -/
def listedBytes (r : ListedRecord) : List Byte :=
  pairBytes r.source r.destination ++ coeffBytes r.setGain ++ yesNoByte r.muted ++ codeByte r.ramp.val ++
    coeffBytes r.current ++ toBytes 2 r.remaining ++ optionalField 1 (fun i : Fin 4 => codeByte i.val) r.owner ++
    optionalField 5 automationBytes r.automation ++ codeByte r.marker.code

/-- An action entry: its kind, its parameters and unused bytes, 7 in all (R193). -/
def entryBytes : Action → List Byte
  | .forward label => codeByte 1 ++ toBytes 2 label ++ toBytes 4 0
  | .driveGain src dst ramp => codeByte 2 ++ pairBytes src dst ++ codeByte ramp.val ++ toBytes 1 0
  | .nudgeGain src dst step => codeByte 3 ++ pairBytes src dst ++ toBytes 2 step
  | .toggleMute src dst => codeByte 4 ++ pairBytes src dst ++ toBytes 2 0
  | .echo link address => codeByte 5 ++ codeByte link.val ++ toBytes 2 address ++ toBytes 3 0

/-- A kind set: bit k set when the inbound kind whose surface code is k is in it (R193). -/
def kindSetByte (kinds : List MessageKind) : List Byte :=
  codeByte ((if kinds.contains .position then 2 else 0) + (if kinds.contains .touch then 4 else 0) +
    (if kinds.contains .press then 8 else 0) + (if kinds.contains .turn then 16 else 0))

/-- RULE_READ (R141), in the order of R138. -/
def ruleBytes (r : Rule) (link : Option (Fin 4)) : List Byte :=
  yesNoByte r.valid ++ kindSetByte r.kinds ++ toBytes 2 r.address ++ toBytes 2 r.mask ++ codeByte r.deadband ++
    optionalField 2 (toBytes 2) r.lastPassed ++ listField entryBytes r.actions ++
    optionalField 1 (fun i : Fin 4 => codeByte i.val) link

/-- One class of SURFACE_STATUS (R134): its number of entries, then the age of the oldest as an optional field, absent where
the class has no entry (DESIGN CHOICE, log entry 34). -/
def classBytes (c : ClassView) : List Byte := codeByte c.entries ++ optionalField 1 codeByte c.oldest

/-- SURFACE_STATUS (R134). -/
def surfaceViewBytes (v : SurfaceView) : List Byte :=
  codeByte v.state.code ++ optionalField 2 (toBytes 2) v.model ++ optionalField 2 (toBytes 2) v.since ++
    codeByte v.interval ++ optionalField 1 codeByte v.stored ++ yesNoByte v.ackPending ++ codeByte v.entries ++
    classBytes v.positions ++ classBytes v.lamps ++ classBytes v.meters ++ toBytes 2 v.holds ++
    toBytes 2 v.block.start ++ toBytes 2 v.block.count

/-- LINK_STATUS (R78). -/
def linkViewBytes (v : LinkView) : List Byte :=
  codeByte v.state.code ++ yesNoByte v.degraded ++ yesNoByte v.enable ++ yesNoByte v.pause ++ toBytes 4 v.mask.toNat ++
    codeByte v.recovery.code ++ codeByte v.errors ++ codeByte v.run ++ codeByte v.missing ++
    optionalField 1 codeByte v.goodRun ++ optionalField 2 (toBytes 2) v.alignCount ++
    optionalField 2 (toBytes 2) v.holdOff ++ optionalField 1 (fun r : FaultReason => codeByte r.code) v.reason ++
    optionalField 1 yesNoByte v.locked ++ codeByte v.relay.code ++ codeByte v.slots

/-- One candidate of CLOCK_STATUS (R106). R193 gives "waiting or window in progress" no code: it is sent as a yes/no field,
yes for a window in progress (DESIGN CHOICE, log entry 34). -/
def candidateBytes (v : CandidateView) : List Byte :=
  codeByte (referenceCode v.ref) ++
    (match v.measured with
    | none => []
    | some (eligible, selectable, qualification, window, deviation) =>
      yesNoByte eligible ++ yesNoByte selectable ++ codeByte qualification.code ++ yesNoByte window ++
        optionalField 4 coeffBytes deviation)

def settingBytes (o : WclkSetting) : List Byte :=
  yesNoByte o.enabled ++ toBytes 2 o.divisor ++ yesNoByte o.inverted

def optionalReference : Option Reference → List Byte := optionalField 1 fun r => codeByte (referenceCode r)

/-- CLOCK_STATUS (R106). The holdover limit is a time, in ms (R193, log entry 19); the lost candidate's last deviation (R98)
follows the lost candidate, and the holdover count takes 4 bytes, as a number that no rule bounds (both DESIGN CHOICE, log
entry 34). -/
def clockViewBytes (v : ClockView) : List Byte :=
  codeByte v.lock.code ++ optionalReference v.selected ++ optionalReference v.lost ++
    optionalField 4 coeffBytes v.lostDeviation ++ optionalField 2 (toBytes 2) v.held ++
    optionalField 2 (toBytes 2) v.pullInCount ++ optionalField 4 (toBytes 4) v.holdCount ++
    listField candidateBytes v.candidates ++ toBytes 2 v.tolerance ++ toBytes 2 v.limit ++ yesNoByte v.revert ++ codeByte v.rate.code ++
    optionalField 1 (fun r : Rate => codeByte r.code) v.pendingRate ++ codeByte v.blockSize ++ codeByte v.position ++
    toBytes 4 v.sampleCounter ++ toBytes 2 v.blockNumber ++
    v.outputs.flatMap fun o => settingBytes o.1 ++ optionalField 4 settingBytes o.2

/-- DEVICE_INFO (R182): vendor and part code, revision, capacities, then the state. -/
def deviceViewBytes (v : DeviceView) : List Byte :=
  toBytes 2 0x0A6D ++ toBytes 2 0x5224 ++ codeByte 1 ++ toBytes 2 1024 ++ codeByte 64 ++ codeByte 64 ++
    toBytes 2 512 ++ codeByte 64 ++ toBytes 2 256 ++ codeByte 16 ++ codeByte 128 ++ codeByte v.mode.code ++
    codeByte v.rate.code ++ codeByte v.blockSize ++ toBytes 2 v.playback ++ toBytes 2 v.records ++
    toBytes 4 v.sampleCounter ++ toBytes 2 v.blockNumber ++ codeByte v.uplink.code ++ codeByte v.store.code ++
    toBytes 2 v.resets ++ codeByte v.places ++ codeByte v.edits ++ yesNoByte v.listSealed

/-- STORE_STATUS (R186). -/
def storeViewBytes (v : StoreView) : List Byte :=
  codeByte v.state.code ++ optionalField 2 (toBytes 2) v.records ++
    optionalField 1 (fun r : Rate => codeByte r.code) v.rate ++ optionalField 1 yesNoByte v.autostart ++
    optionalField 1 yesNoByte v.fallback ++ optionalField 2 (toBytes 2) v.since ++ toBytes 2 v.completed

/-- The fields of a reply (R171, R193). The counters of a CLIP group, as many as the request names, are a list with its count;
those of the other groups are fixed in number by R179. -/
def replyFields : ReplyData → List Byte
  | .plain => []
  | .conflict pos src dst limit => codeByte pos ++ pairBytes src dst ++ codeByte limit.code
  | .xpRead v => xpViewBytes v
  | .patchList records total edits listSealed _ =>
    listField listedBytes records ++ toBytes 2 total ++ codeByte edits ++ yesNoByte listSealed
  | .rule r link => ruleBytes r link
  | .law entries => entries.flatMap coeffBytes
  | .surfaceStatus v => surfaceViewBytes v
  | .linkState st => codeByte st.code
  | .linkStatus v => linkViewBytes v
  | .bytes b => listField (fun x : Byte => [x]) b
  | .lockState lock selected => codeByte lock.code ++ optionalReference selected
  | .clockStatus v => clockViewBytes v
  | .configNumber n => codeByte n
  | .deviceInfo v => deviceViewBytes v
  | .storeStatus v => storeViewBytes v
  | .counters true values => values.flatMap (toBytes 4)
  | .counters false values => listField (toBytes 2) values

/-- A REPLY body (R171). -/
def replyBody (r : Reply) : List Byte :=
  [r.tag, r.kind] ++ codeByte r.answer.status.code ++ yesNoByte r.answer.held ++ replyFields r.answer.data

/-! ### Notices -/

/-- The notice kind of an alarm and its fields from offset 2 (R83, R105, R120, R135, R188). -/
def alarmFields : Alarm → Nat × List Byte
  | .linkState link st degraded pause errors reason stamp =>
    (0x01, codeByte link.val ++ codeByte st.code ++ yesNoByte degraded ++ yesNoByte pause ++ codeByte errors ++
      optionalField 1 (fun r : FaultReason => codeByte r.code) reason ++ toBytes 4 stamp)
  | .surfaceState link st model released stamp =>
    (0x02, codeByte link.val ++ codeByte st.code ++ optionalField 2 (toBytes 2) model ++
      optionalField 2 (toBytes 2) released ++ toBytes 4 stamp)
  | .clockState lock ref rate deviation stamp =>
    (0x03, codeByte lock.code ++ optionalReference ref ++ codeByte rate.family.code ++ codeByte rate.mult.code ++
      optionalField 4 coeffBytes deviation ++ toBytes 4 stamp)
  | .uplink kind st block stamp occupancy underruns fallback =>
    (0x04, codeByte kind.code ++ codeByte st.code ++ toBytes 2 block ++ toBytes 4 stamp ++ codeByte occupancy ++
      toBytes 4 underruns ++ optionalField 1 yesNoByte fallback)
  | .store st records completed stamp =>
    (0x05, codeByte st.code ++ optionalField 2 (toBytes 2) records ++ toBytes 2 completed ++ toBytes 4 stamp)

/-- A NOTICE body of an alarm: kind, superseded count, fields (R174). -/
def alarmBody (e : AlarmEntry) : List Byte :=
  codeByte (alarmFields e.alarm).1 ++ codeByte e.superseded ++ (alarmFields e.alarm).2

/-- A NOTICE body of a surface event with the pending-loss count it carries (R145, R175). -/
def eventBody (e : SurfaceEvent) (loss : Nat) : List Byte :=
  codeByte 0x10 ++ codeByte 0 ++ codeByte e.link.val ++ codeByte e.kind.code ++ toBytes 2 e.address ++
    toBytes 2 (BitVec.ofInt 16 e.value).toNat ++ toBytes 2 e.label ++ toBytes 4 e.stamp ++ toBytes 2 loss

/-- A METER report body (R164). -/
def reportBody (r : MeterReport) : List Byte :=
  codeByte r.config ++ codeByte 0 ++ toBytes 2 r.first ++ toBytes 2 r.last ++ codeByte r.merge ++
    yesNoByte r.setupSeen ++ listField (fun p => codeByte p.point ++ toBytes 4 p.peak ++ yesNoByte p.clipSeen) r.points

/-! ### The upstream lane -/

/-- An UP block body (R108, R195). -/
def upBody (b : UpBlock) : List Byte :=
  toBytes 2 b.number ++ codeByte b.blockSize ++ toBytes 2 b.records ++ toBytes 2 b.playback ++ toBytes 4 b.stamp ++
    codeByte b.rate.code ++ codeByte (b.mode.code + 2 * b.uplink.code + 4 * b.played.toNat) ++ toBytes 2 b.nextPlay ++
    codeByte b.occupancy ++ b.rows.flatMap fun row => row.flatMap containerBytes

/-- The frame on the upstream lane, whole; none while the lane is free (R194). -/
def laneFrame : Lane → Option (List Byte)
  | .free => none
  | .block b => some (encodeFrame 0x81#8 (upBody b))
  | .message (.alarm e) => some (encodeFrame 0x83#8 (alarmBody e))
  | .message (.reply r) => some (encodeFrame 0x82#8 (replyBody r))
  | .message (.event e loss) => some (encodeFrame 0x83#8 (eventBody e loss))
  | .message (.meter r) => some (encodeFrame 0x84#8 (reportBody r))

/-! ### Converter frames and surface messages -/

/-- The link code: bits 7–5 state, bit 4 family, bits 1–0 multiplier (R63). -/
def linkCode (st : LinkState) (r : Rate) : Byte := BitVec.ofNat 8 (32 * st.code + r.code)

/-- The part's frame on a converter link, with its check (R61, R63). -/
def partFrameBytes (f : PartFrame) : List Byte :=
  let held := [f.sequence, linkCode f.state f.rate] ++ f.slots.flatMap containerBytes ++ [f.command]
  held ++ [check8 held]

/-- A message on the line to a surface (R196). -/
def outMessageBytes : OutMessage → List Byte
  | .helloAck => surfaceBytes 11 0 0#12
  | .update kind address value => surfaceBytes kind.code address (BitVec.ofNat 12 value)

end Sys2Proof.Machine
end

