-- ==== Sys2Proof/Tests/Slice0.lean ====
section
/-! SUPPORT. Tests: an ill-formed command for each well-formedness check, frames and messages written out from the layouts
chapter, the manual's worked numbers, and for each statement of Obligations.lean states and operands that meet its
hypotheses, clause by clause. -/

namespace Sys2Proof.Tests

open Sys2Proof Sys2Proof.Machine Sys2Proof.Safety

/-! ### Well-formedness: one ill-formed command for each check -/

theorem test_illFormed_patch :
    (Instr.xpAdd 1 (some ⟨65536, 0, 0, 0, 0⟩)).wellFormed = false ∧
    (Instr.xpAdd 1 (some ⟨0, 0, 2147483648, 0, 0⟩)).wellFormed = false ∧
    (Instr.xpAdd 1 (some ⟨0, 0, 0, 256, 0⟩)).wellFormed = false ∧
    (Instr.xpRemove 1 (some ⟨0, 65536⟩)).wellFormed = false ∧
    (Instr.xpGain 1 (some ⟨0, 0, -2147483649, 0⟩)).wellFormed = false ∧
    (Instr.xpMute 1 (some ⟨0, 0, 256⟩)).wellFormed = false ∧
    (Instr.xpRamp 1 (some ⟨0, 0, 256⟩)).wellFormed = false ∧
    (Instr.xpRead 1 (some ⟨65536, 0⟩)).wellFormed = false ∧
    (Instr.patchList 1 (some ⟨0, 256⟩)).wellFormed = false := by decide

theorem test_illFormed_rules :
    (Instr.ruleWrite 1 (some ⟨0, 0, 256, 0, 0, 0, []⟩)).wellFormed = false ∧
    (Instr.ruleWrite 1 (some ⟨0, 0, 0, 0, 0, 0, [.unassigned 5]⟩)).wellFormed = false ∧
    (Instr.ruleWrite 1 (some ⟨0, 0, 0, 0, 0, 0, [.forward 65536]⟩)).wellFormed = false ∧
    (Instr.ruleRead 1 (some 65536)).wellFormed = false ∧
    (Instr.ruleBlocks 1 (some ⟨256, 0, 0⟩)).wellFormed = false ∧
    (Instr.lawWrite 1 (some ⟨0, [0]⟩)).wellFormed = false ∧
    (Instr.lawRead 1 (some 256)).wellFormed = false := by decide

theorem test_illFormed_links :
    (Instr.surfaceSend 1 (some ⟨0, 256, 0, 0⟩)).wellFormed = false ∧
    (Instr.surfaceStatus 1 (some 256)).wellFormed = false ∧
    (Instr.surfaceConfig 1 (some ⟨0, 256⟩)).wellFormed = false ∧
    (Instr.linkConfig 1 (some ⟨0, 256, 0, 0⟩)).wellFormed = false ∧
    (Instr.linkRestart 1 (some 256)).wellFormed = false ∧ (Instr.linkPause 1 (some 256)).wellFormed = false ∧
    (Instr.linkResume 1 (some 256)).wellFormed = false ∧ (Instr.linkStatus 1 (some 256)).wellFormed = false ∧
    (Instr.converterCommand 1 (some ⟨256, []⟩)).wellFormed = false ∧
    (Instr.edgeLoss .internal).wellFormed = false ∧ (Instr.position 0 4096 0).wellFormed = false ∧
    (Instr.touch 0 0 4096).wellFormed = false ∧ (Instr.press 0 4096 0).wellFormed = false ∧
    (Instr.turn 0 0 2048).wellFormed = false ∧ (Instr.hello 0 0 4096).wellFormed = false ∧
    (Instr.malformedMessage 0 (.restarted 0x7F#8)).wellFormed = false := by decide

theorem test_illFormed_device :
    (Instr.clockCandidates 1 (some ⟨[256], 200, 30, 0⟩)).wellFormed = false ∧
    (Instr.clockRate 1 (some ⟨256, 0⟩)).wellFormed = false ∧
    (Instr.wclkOut 1 (some ⟨0, 0, 65536, 0⟩)).wellFormed = false ∧
    (Instr.meterPoints 1 (some ⟨0, [⟨0, 0, 65536, none⟩]⟩)).wellFormed = false ∧
    (Instr.meterConfig 1 (some 256)).wellFormed = false ∧ (Instr.meterThresholds 1 (some [0])).wellFormed = false ∧
    (Instr.modeSetSetup 1 (some 1)).wellFormed = false ∧ (Instr.modeSetOperate 1 (some 0)).wellFormed = false ∧
    (Instr.uplinkConfig 1 (some ⟨256, 0, 0⟩)).wellFormed = false ∧
    (Instr.storeWrite 1 (some ⟨256, 0⟩)).wellFormed = false ∧
    (Instr.countersRead 1 (some ⟨0, 0, 256, 0⟩)).wellFormed = false ∧ (Instr.unknown 1 0x10#8).wellFormed = false ∧
    (Instr.downBlock ⟨65536, 16, 256, 16, []⟩).wellFormed = false := by decide

/-! ### Layouts, written out from 12_frame_and_message_layouts.md -/

/-- XP_ADD of pair (5, 300) at gain −8,388,608, not muted, ramp code 7: R193's fields, most significant byte first. -/
theorem test_decode_xpAdd :
    decodeRequest ⟨0x42#8, 0x10#8, [0x00#8, 0x05#8, 0x01#8, 0x2C#8, 0xFF#8, 0x80#8, 0x00#8, 0x00#8, 0x00#8, 0x07#8]⟩ =
      .xpAdd 0x42#8 (some ⟨5, 300, -8388608, 0, 7⟩) := by decide

/-- RULE_WRITE of rule 511 with the kinds POSITION and TURN and one DRIVE_GAIN action, whose unused byte is not read. -/
theorem test_decode_ruleWrite :
    decodeRequest ⟨1#8, 0x20#8, [0x01#8, 0xFF#8, 0x01#8, 0x12#8, 0x00#8, 0x2A#8, 0x0F#8, 0xFF#8, 0x03#8, 0x01#8,
        0x02#8, 0x00#8, 0x05#8, 0x01#8, 0x2C#8, 0x04#8, 0xEE#8]⟩ =
      .ruleWrite 1#8 (some ⟨511, 1, 0x12, 42, 4095, 3, [.driveGain 5 300 4]⟩) := by decide

/-- A CLOCK_CANDIDATES body of LINK 3, WORDCLOCK and INTERNAL with a limit of 30,000 ms; one byte short, it cannot be read
(R170). -/
theorem test_decode_clockCandidates :
    decodeRequest ⟨9#8, 0x50#8, [3#8, 3#8, 8#8, 9#8, 0x00#8, 0xC8#8, 0x75#8, 0x30#8, 1#8]⟩ =
        .clockCandidates 9#8 (some ⟨[3, 8, 9], 200, 30000, 1⟩) ∧
      decodeRequest ⟨9#8, 0x50#8, [3#8, 3#8, 8#8, 9#8, 0x00#8, 0xC8#8, 0x75#8, 0x30#8]⟩ = .clockCandidates 9#8 none := by
  decide

/-- MODE_SET's two rows, and a kind code of no request. -/
theorem test_decode_modeSet :
    decodeRequest ⟨1#8, 0x70#8, [0#8]⟩ = .modeSetSetup 1#8 (some 0) ∧
      decodeRequest ⟨1#8, 0x70#8, [1#8]⟩ = .modeSetOperate 1#8 (some 1) ∧
      decodeRequest ⟨1#8, 0x70#8, [2#8]⟩ = .modeSetSetup 1#8 (some 2) ∧
      decodeRequest ⟨1#8, 0x19#8, []⟩ = .unknown 1#8 0x19#8 := by decide

/-- R61's check of the single byte 0x01 is the polynomial's own remainder, and R194's likewise. -/
theorem test_checks : check8 [0x01#8] = 0x07#8 ∧ check32 [0x01#8] = 0x1EDC6F41#32 := by decide

/-- A surface message's bytes (R196): POSITION of element 0x123 at value 1000 is 1.0001.000, 0.1001000, 0.11.00111,
0.1101000. -/
theorem test_surfaceBytes :
    surfaceBytes 1 0x123 1000#12 = [0x88#8, 0x48#8, 0x67#8, 0x68#8] ∧
      (assembleByte 2 [0x88#8, 0x48#8, 0x67#8] (some 0x68#8)).2 = some (.position 2 0x123 1000) := by decide

/-- No row gives bits: a word spells no command, and the queue stays as it was. -/
theorem test_noWords : decodeTableWord 16 0x1234 = none ∧
    (State.reset.withFetchWord 16 0x1234).pending = [] := by decide +kernel

/-! ### The manual's worked numbers -/

/-- A settled record from source 5 to destination 300 at gain and current `g`. -/
def settled (g : Int) : Crosspoint :=
  { source := 5, destination := 300, setGain := g, muted := false, ramp := 1, current := g, remaining := 0, owner := none
    automation := none }

/-- "Ramp, then retarget at r = 9" (03): 65,536 a step upward; from 458,752 at r = 16, −28,672 a step downward. -/
theorem test_ramp_retarget :
    let up := writeGain 1048576 1 (settled 0)
    let down := writeGain 0 1 (rampStep^[7] up)
    (up.remaining, (rampStep up).current, (rampStep^[7] up).current, (rampStep^[7] up).remaining) =
        (16, 65536, 458752, 9) ∧
      (down.remaining, (rampStep down).current, (rampStep^[15] down).current, (rampStep^[16] down).current) =
        (16, 430080, 28672, 0) := by decide +kernel

/-- "A difference that does not divide" (03). -/
theorem test_ramp_truncates :
    let r := writeGain 741455 1 (settled 0)
    [(rampStep r).current, (rampStep^[2] r).current, (rampStep^[3] r).current, (rampStep^[16] r).current] =
      [46340, 92681, 139022, 741455] := by decide +kernel

/-- Writes while muted (03): the set gain moves, the target and the ramp do not; the unmute uses the record's code 3. -/
theorem test_ramp_muted :
    let r := { settled 0 with ramp := 3, setGain := 1048576, current := 262144, remaining := 12 }
    let muted := writeMute true r
    let written := writeGain 524288 0 (rampStep^[16] muted)
    (muted.remaining, (rampStep muted).current, written.remaining, (rampStep^[48] written).current,
        (writeMute false (rampStep^[48] written)).remaining) = (64, 258048, 48, 0, 64) := by decide +kernel

/-- The worked mix cases and the limits of a single product (03). -/
theorem test_mix :
    (mixValue (4000000 * 1048576 + 6000000 * 524288), mixClips (4000000 * 1048576 + 6000000 * 524288)) =
        (7000000, false) ∧
      (mixValue (10000000 * 1048576), mixClips (10000000 * 1048576)) = (8388607, true) ∧
      mixValue (-8388608 * -8388608) = 8388607 ∧ mixValue (8388607 * -8388608) = -8388608 ∧
      mixClips (-8388608 * 1048576) = false ∧ mixValue (1000 * 1048576 + 1875 * 524288) = 1938 := by decide

/-- The worked deviation cases (05). -/
theorem test_deviation :
    [windowDeviation .x1 32752, windowDeviation .x1 32751, windowDeviation .x4 8180, windowDeviation .x2 16390,
        windowDeviation .x1 32785, windowDeviation .x2 32768] = [488, 518, 1464, -366, -518, -1000000] ∧
      inTolerance 500 488 = true ∧ inTolerance 500 (-518) = false := by decide

/-- The fader law's table, and truncation toward zero where entries fall (08). -/
theorem test_law :
    [0, 100, 256, 512, 700, 1023].map (lawCoefficient RuleUnit.reset.law) =
        [0, 102400, 262144, 524288, 716800, 1047552] ∧
      lawCoefficient (tabulate 129 fun k => if k = 0 then 100 else 91) 3 = 97 := by decide +kernel

/-- The nudges of R159's table, and the segments of R166's. -/
theorem test_nudge_segment :
    [nudge 1048576 (-3) 4096, nudge 8300000 10 10000, nudge (-8000000) (-64) 65535, nudge 0 1 1] =
        [1036288, 8388607, -8388608, 1] ∧
      [0, 255, 256, 700000, 8388607, 8388608].map (segment MeterUnit.reset.thresholds) = [0, 0, 1, 12, 15, 16] := by
  decide +kernel

/-- Offsets from the next-play number across the wrap (06). -/
theorem test_ringOffset :
    [ringOffset 0 65534, ringOffset 65535 65534, ringOffset 2 65534, ringOffset 3 4] = [2, 1, 4, 65535] := by decide

/-- The slot numbers' decoding (R1): link 7 slot 31, record channel 44, bus 15. -/
theorem test_slotKind :
    slotKind 255 = .converter 7 31 ∧ slotKind 300 = .uplink 44 ∧ slotKind 527 = .bus 15 := by decide

/-- DEGRADED's thresholds (04): set at 98 from clear, kept at 97, cleared first at 63. -/
theorem test_degraded :
    degradedAfter false 98 = true ∧ degradedAfter true 97 = true ∧ degradedAfter true 64 = true ∧
      degradedAfter true 63 = false := by decide

/-! ### States for the witnesses -/

/-- The state after reset. -/
def base : State := State.reset

/-- The part without power. -/
def dark : State := { base with powered := false }

/-- `s` in OPERATE. -/
def operating (s : State) : State := s.onDevice fun d => { d with mode := .operate }

/-- `s` with the request of a command waiting. -/
def ask (c : Instr) (s : State) : State := { s with mgmt := { s.mgmt with requests := (encodeRequest c).toList } }

theorem takes_ask {c : Instr} {s : State} {r : RequestFrame} (h : encodeRequest c = some r) (d : decodeRequest r = c)
    (p : s.powered = true) (q : s.boundary.taken = false := by rfl) : Takes c [] (ask c s) :=
  ⟨⟨p, q⟩, r, by simp [ask, h], d⟩

/-- The state a command leaves. -/
def after (c : Instr) (s : State) : State :=
  match exec c s with
  | .next t => t
  | .fault _ => s
  | .refused _ => s

/-- `s` with these records, edits and sealing tag. -/
def patched (table : List Crosspoint) (edits : List Edit) (commit : Option Byte) (s : State) : State :=
  s.onEngine fun e => { e with table := table, edits := edits, commit := commit }

/-- An ADD of pair (5, 300), and a REMOVE of it. -/
def entry : PatchEntry := ⟨5, 300, 1048576, false, 1⟩
def removal : Edit := .remove 5 300

/-- A state in which most parts hold something: a held record with an automation gain, a pending ADD, a block in the ring, a
link in FAULT, an ONLINE surface link with an update, an alarm, and a command waiting. -/
def busy : State :=
  { ((((patched [{ settled 0 with owner := some 2, automation := some (7, 0) }] [.add ⟨6, 300, 5, false, 0⟩] none
      (operating base)).onSurface 2 fun f =>
        { f with state := .online, updates := [⟨.lamp, 9, 1, 0⟩] }).onUplink fun u =>
        { u with ring := [⟨2, []⟩] }).onLink 3 fun l =>
        { l with state := .fault, errors := 255, degraded := true }).onMgmt fun m =>
        { m with alarms := [⟨.clockState .free none Rate.base none 0, 3⟩] } with
    pending := [.keepalive 2] }

/-! ### Witnesses: the queue, the taking of requests, the laws every step keeps -/

theorem test_witness_EveryStepGoesOn :
    base.pending = [] ∧ dark.powered = false ∧ Instr.samplePeriod ≠ .powerOn ∧
    (let s := base.onBoundary fun b => { b with taken := true };
      s.powered = true ∧ s.boundary.taken = true ∧ Instr.badFrame ∉ boundaryCommands) := by decide +kernel

theorem test_witness_RequestCommandsTakeTheOldestRequest :
    (InPeriod base ∧ base.mgmt.requests = [] ∧ placesInUse (hearFrame base) < 16) ∧
    (let s := base.onMgmt fun m => { m with replies := List.replicate 16 ⟨1, 0x18, Answer.ok⟩ };
      InPeriod s ∧ s.mgmt.requests = [] ∧ ¬ placesInUse (hearFrame s) < 16) ∧
    (∃ q rest, (ask (.patchDiscard 1 (some ())) base).mgmt.requests = q :: rest ∧
      decodeRequest q ≠ decodeRequest ⟨2, 0x18, []⟩) ∧
    Takes (.xpAdd 7 none) [] (base.onMgmt fun m => { m with requests := [⟨7, 0x10, [1]⟩] }) ∧
    Takes (.countersRead 7 none) [] (base.onMgmt fun m => { m with requests := [⟨7, 0x76, []⟩] }) :=
  ⟨by decide +kernel, by decide +kernel, ⟨_, _, rfl, by decide +kernel⟩,
    ⟨⟨rfl, rfl⟩, _, rfl, by decide +kernel⟩, ⟨⟨rfl, rfl⟩, _, rfl, by decide +kernel⟩⟩

theorem test_witness_steps : ∃ t, step busy = .next t := ⟨_, rfl⟩

theorem test_witness_StepKeepsPatchSound : PatchSound busy where
  sorted := by unfold TableSorted; decide +kernel
  limits := ⟨by decide +kernel, by decide +kernel⟩
  edits := by decide +kernel
  distinct := by decide +kernel
  fits := by
    intro e he
    have : e = .add ⟨6, 300, 5, false, 0⟩ := by simpa using (show e ∈ [Edit.add ⟨6, 300, 5, false, 0⟩] from he)
    subst this
    exact (by decide +kernel : findRecord busy.engine.table 6 300 = none)
  accepted := by decide +kernel
  store := trivial

theorem test_witness_StepKeepsHoldsSound : HoldsSound busy := by
  unfold HoldsSound
  decide +kernel

theorem test_witness_StepKeepsRingSound : RingSound busy :=
  ⟨by decide +kernel, by decide +kernel, by decide +kernel, by decide +kernel⟩

/-- Links whose frame periods all wait for their judgement are sound where their counts are. -/
theorem linksSound_of {s : State} (h : ∀ i : Fin 8, (s.links[i].errors ≤ 255 ∧ s.links[i].run ≤ 255 ∧
      s.links[i].missing ≤ 16 ∧ s.links[i].holdOff ≤ 2048 ∧
      (s.links[i].state = .off → s.links[i].errors = 0 ∧ s.links[i].degraded = false ∧ s.links[i].relay = .idle) ∧
      (s.links[i].state = .fault → s.links[i].errors = 255 ∧ s.links[i].degraded = true ∧ s.links[i].relay = .idle) ∧
      (s.links[i].state = .align → s.links[i].relay = .idle)) ∧
      (∀ f ∈ s.links[i].frames, f.unjudged = true ∧ f.age ≤ 1 ∧ s.links[i].state.receives = true) ∧
      s.links[i].frames.Pairwise (fun a b => b.age < a.age) ∧ s.links[i].fresh = false) : LinksSound s := by
  intro i
  obtain ⟨⟨a, b, c, d, e, f, g⟩, waiting, order, fresh⟩ := h i
  have quiet : ∀ x ∈ s.links[i].frames, ∀ p, x.status = .judged p → p.active = false := by
    intro x hx p hp
    have := (waiting x hx).1
    simp [FramePeriod.unjudged, hp] at this
  refine ⟨a, b, c, d, e, f, g, fun _ => quiet, fun x hx => (waiting x hx).2.1, order,
    List.pairwise_of_forall_mem_list fun _ _ y hy _ => (waiting y hy).1,
    fun _ x hx => quiet x (List.mem_of_getLast? hx), fun x hx _ => (waiting x hx).2.2, ?_⟩
  · intro hf
    rw [fresh] at hf
    cases hf

theorem test_witness_StepKeepsLinksSound : LinksSound busy := linksSound_of (by decide +kernel)

theorem test_witness_StepKeepsBudgetSound : BudgetSound busy := by unfold BudgetSound; decide +kernel

theorem test_witness_StepKeepsQueuesSound : QueuesSound busy where
  alarms := by decide +kernel
  events := by decide +kernel
  pendingLoss := by decide +kernel
  frames := by decide +kernel
  updates := by unfold UpdatesSound; decide +kernel

theorem test_witness_StepKeepsGainsSound : GainsSound busy where
  records := by unfold InRange; decide +kernel
  settled := by decide +kernel
  automation := by
    intro r hr a ha
    have : r = { settled 0 with owner := some 2, automation := some (7, 0) } := by
      simpa using (show r ∈ [{ settled 0 with owner := some 2, automation := some (7, 0) }] from hr)
    subst this
    cases ha
    exact ⟨by decide, by decide⟩
  edits := by
    intro e he
    have : Edit.add e = .add ⟨6, 300, 5, false, 0⟩ := by
      simpa using (show Edit.add e ∈ [Edit.add ⟨6, 300, 5, false, 0⟩] from he)
    cases this
    exact ⟨by decide, by decide⟩
  valid := nofun
  writing := nofun
  law := by unfold InRange; decide +kernel

theorem test_witness_StepKeepsFrameSound : FrameSound busy where
  size := .inr (.inl rfl)
  position := by decide +kernel
  playback := by decide +kernel
  records := by decide +kernel
  pending := nofun
  due := nofun
  idle := by decide +kernel
  drained := by decide +kernel

theorem test_witness_RequestsDecodeWhatTheyEncode :
    (Instr.xpAdd 1 (some ⟨5, 300, -1, 0, 7⟩)).wellFormed = true ∧
    encodeRequest (.xpAdd 1 (some ⟨5, 300, -1, 0, 7⟩)) =
      some ⟨1, 0x10, [0, 5, 1, 0x2C, 0xFF, 0xFF, 0xFF, 0xFF, 0, 7]⟩ := by decide

theorem test_witness_FramesAndMessagesDecode :
    ([] : List Byte).length + 2 < 2 ^ 32 ∧ ([0x42#8] : List Byte).length < 2 ∧ (0x81#8 ≠ 0x01#8 ∧ 0x81#8 ≠ 0x02#8) ∧
    1#32 ≠ check32 [] ∧ ([0x02#8] : List Byte).length < 12 ∧
    (let frame := encodeFrame 0x02#8 [1, 0x73] ++ [0#8]; frame.length ≠ 12 + ofBytes ((frame.drop 4).take 4)) ∧
    15 < 16 ∧ 4095 < 4096 := by decide +kernel

/-! ### Witnesses: power, the sample period and the block boundary -/

/-- A patch of one record at 96 kHz. -/
def patch (autostart fallback : Bool) : StoredPatch := ⟨[entry], ⟨.k48, .x2⟩, autostart, fallback⟩

def stored (store : Store) (s : State) : State := s.onDevice fun d => { d with store := store }

theorem test_witness_PowerOnAndPowerLoss :
    base.device.store = .empty ∧
    (∃ p, (stored (.valid (patch false false)) base).device.store = .valid p ∧ p.autostart = false) ∧
    (∃ p, (stored (.valid (patch true false)) base).device.store = .valid p ∧ p.autostart = true) ∧
    (base.powered = true ∧ ∀ p tag since, base.device.store ≠ .writing p tag since) ∧
    (∃ p tag since, (stored (.writing (patch true true) 3 0) base).device.store = .writing p tag since) :=
  ⟨rfl, ⟨_, rfl, rfl⟩, ⟨_, rfl, rfl⟩, ⟨rfl, nofun⟩, _, _, _, rfl⟩

/-- The last sample period of a block period. -/
def last (s : State) : State := s.onGen fun g => { g with position := 15, blockNumber := 65535 }

theorem test_witness_SamplePeriodAdvances :
    (base.powered = true ∧ settle base = settle base ∧ base.mgmt.requests = [] ∧ base.boundary = Boundary.none ∧
      base.gen.position + 1 < base.gen.blockSize) ∧
    (InPeriod (last base) ∧ (last base).gen.blockSize ≤ (last base).gen.position + 1 ∧
      ∃ t, exec .blockBoundary (last base) = .next t) ∧
    (base.onBoundary fun b => { b with taken := true }).boundary.taken = true :=
  ⟨⟨rfl, rfl, rfl, by decide +kernel⟩, ⟨by decide +kernel, by decide +kernel, _, rfl⟩, rfl⟩

/-- A state that owes much at the end of its sample period: link 3 two frame periods without a start, link 4 in ALIGN for
4095 periods, link 5 in FAULT for 2047, link 6 a reply for 255; a pull-in count of 256; an open message, a silent surface and a
send interval run out; a store write 300 ms old; a setting for a disabled output. -/
def owing : State :=
  (((((((base.onLink 3 fun l => { l with state := .active, frames := [⟨1, .unstarted⟩, ⟨0, .unstarted⟩] }).onLink 4 fun l =>
    { l with state := .align, alignCount := 4095 }).onLink 5 fun l =>
    { l with state := .fault, errors := 255, degraded := true, holdOff := 2047 }).onLink 6 fun l =>
    { l with state := .active, relay := .awaiting 9 255 none }).onClock fun c =>
    { c with
      time := 500 * timePerMs, lock := .pullIn, selected := some .wordclock, pullInCount := 256
      outputs := modifyEntry c.outputs 1 fun o => { o with waiting := some ⟨true, 256, true⟩ } }).onSurface 2 fun f =>
    { f with state := .online, assembler := [0x88#8], intervalStart := 499 * timePerMs, interval := 1 }).onDevice fun d =>
    { d with store := .writing ⟨[], Rate.base, false, false⟩ 7 (200 * timePerMs) })

theorem test_witness_SamplePeriodAdvances_owing :
    InPeriod owing ∧ LinksSound owing ∧
      owing.surfaces[(2 : Fin 4)].intervalStart + owing.surfaces[(2 : Fin 4)].interval * timePerMs ≤
        owing.clock.time + owing.clock.periodTime ∧
      owing.boundary = Boundary.none ∧ owing.gen.position + 1 < owing.gen.blockSize :=
  ⟨⟨rfl, rfl⟩, linksSound_of (by decide +kernel), by decide +kernel, rfl, by decide +kernel⟩

/-- The end of the period brings each of them about (R60, R66, R68, R81, R96, R104, R122, R126, R130, R187). -/
theorem test_endOfPeriodSettles :
    let w := endPeriod owing
    (w.links[(3 : Fin 8)].counters.missing, w.links[(4 : Fin 8)].state, w.links[(5 : Fin 8)].state,
      w.links[(6 : Fin 8)].relay, w.clock.lock) = (1, .fault, .align, .idle, .locked) ∧
    (w.surfaces[(2 : Fin 4)].state, w.surfaces[(2 : Fin 4)].assembler, w.surfaces[(2 : Fin 4)].intervalStart) =
      (.lost, [], 500 * timePerMs) ∧
    w.device.store = .valid ⟨[], Rate.base, false, false⟩ ∧
    w.clock.outputs[(1 : Fin 2)].active = ⟨true, 256, true⟩ := by decide +kernel

/-- Nothing waits in the state after reset, and nothing is due at the end of its sample period. -/
theorem test_witness_SamplePeriodAdvances_idle :
    InPeriod base ∧ base.mgmt.requests = [] ∧
    (∀ c, (∃ i : Fin 8, c = .missingFrame i ∨ c = .frameIncomplete i ∨ c = .noSync i ∨ c = .holdOffExpiry i ∨
        c = .commandTimeout i) ∨ (∃ ref, c = .edgeLoss ref) ∨ (∃ i : Fin 4, c = .silenceTimerExpiry i ∨
        c = .sendIntervalExpiry i) ∨ (∃ i : Fin 2, c = .wclkOutLatch i) ∨
        c ∈ [Instr.pullInCount, .holdoverExpiry] → exec c base = .next base) ∧
    (∀ i : Fin 4, base.surfaces[i].assembler = []) ∧ (∀ p tag since, base.device.store ≠ .writing p tag since) ∧
    ∀ c ∈ [Instr.blockBoundary, .commitApply, .rateChange, .uplinkConfigEffect, .uplinkLoss, .fallbackDecision,
      .meterReport, .meterPromotion, .resetBoundary], exec c base = .next base := by
  have quiet : ∀ f : State → State, f base = base → act f base = .next base := fun f h => by
    rw [act_inPeriod f ⟨rfl, rfl⟩, h]
  have still : ∀ f : State → State, f base = base → run f base = .next base := fun f h => by
    rw [run_powered f rfl, h]
  have idle {c : Prop} [Decidable c] (t : State) (h : ¬ c) : (if c then t else base) = base := if_neg h
  refine ⟨⟨rfl, rfl⟩, rfl, ?_, by decide +kernel, nofun, ?_⟩
  · rintro c (⟨i, rfl | rfl | rfl | rfl | rfl⟩ | ⟨ref, rfl⟩ | ⟨i, rfl | rfl⟩ | ⟨i, rfl⟩ | h)
    · exact quiet (missFrame i) (idle _ (by revert i; decide +kernel))
    · exact quiet (loseFrame i) (idle _ (by revert i; decide +kernel))
    · exact quiet (failAlign i) (idle _ (by revert i; decide +kernel))
    · exact quiet (expireHoldOff i) (idle _ (by revert i; decide +kernel))
    · exact quiet (timeOutCommand i) (idle _ (by revert i; decide +kernel))
    · refine quiet (loseEdges ref) (idle _ ?_)
      cases ref with
      | link n => revert n; decide +kernel
      | wordclock => decide +kernel
      | internal => decide +kernel
    · exact quiet (expireSilence i) (idle _ (by revert i; decide +kernel))
    · exact quiet (expireInterval i) (idle _ (by revert i; decide +kernel))
    · refine still (latchOutput i) ?_
      have clock : (latchOutput i base).clock = base.clock := by revert i; decide +kernel
      exact congrArg (fun x => ({ base with clock := x } : State)) clock
    · simp only [List.mem_cons, List.not_mem_nil, or_false] at h
      rcases h with rfl | rfl <;> exact quiet _ rfl
  · intro c h
    simp only [List.mem_cons, List.not_mem_nil, or_false] at h
    rcases h with rfl | rfl | rfl | rfl | rfl | rfl | rfl | rfl | rfl
    · exact still takeBoundary (idle _ (by decide +kernel))
    all_goals exact still _ rfl

/-- Link 3 with a judged frame period that falls due for presentation, and the one after it. -/
def presenting (p : Presentation) : State :=
  base.onLink 3 fun l => { l with state := .active, enable := true, mask := 1, frames := [⟨1, .judged p⟩, ⟨0, .started⟩] }

theorem test_witness_SamplePeriodLengths :
    (base.powered = true ∧ settle base = settle base ∧ base.clock.lock = .free) ∧
    (let c : ClockUnit := { base.clock with
        lock := .pullIn, selected := some .wordclock, entryLength := 513, pullInCount := 253
        candidates := [⟨.wordclock, .qualified, some ⟨3, 0, 1536⟩, some 512, some 0, some 32768⟩] };
      c.lock = .pullIn ∧ 256 ≤ c.pullInCount + (max c.entryLength (referencePeriod c) / referencePeriod c + 2)) ∧
    (let c : ClockUnit := { base.clock with
        lock := .locked, selected := some .wordclock
        candidates := [⟨.wordclock, .qualified, some ⟨3, 0, 1536⟩, some 512, some 0, some 32768⟩] };
      c.lock = .locked ∧ latestEdge c = some 1536 ∧ 0 < referencePeriod c) ∧
    latestEdge base.clock = none ∧
    (let c := { base.clock with lock := .holdover, holdCount := some 32785, runPeriods := 63, runLong := 16 };
      c.lock = .holdover ∧ c.runLong ≤ 32785 % 64 ∧ 32785 % 64 + c.runPeriods ≤ 64 + c.runLong) ∧
    (let o : WclkOutput := ⟨⟨true, 1, false⟩, none, some 0⟩;
      o.active.enabled = true ∧ o.position = some 0 ∧ o.active.divisor = 1) ∧
    (let o : WclkOutput := ⟨⟨true, 3, true⟩, none, some 2⟩;
      o.active.enabled = true ∧ o.position = some 2 ∧ o.active.divisor ≠ 1) ∧
    base.clock.outputs[(0 : Fin 2)].active.enabled = false := by
  refine ⟨⟨rfl, rfl, rfl⟩, ?_⟩
  decide +kernel

theorem test_witness_LinksPresentTheirInputs :
    (let p : Presentation := ⟨true, .repeated, Vector.replicate 32 7⟩;
      ((presenting p).links[(3 : Fin 8)].frames.find? fun f => decide (f.age = 1)).bind (fun f => match f.status with
        | .judged p => some p
        | _ => none) = some p) ∧
    ((presenting ⟨false, .silent, Vector.replicate 32 0⟩).links[(3 : Fin 8)].frames.find? fun f => decide (f.age = 1)).isSome ∧
    (base.links[(3 : Fin 8)].frames.find? fun f => decide (f.age = 1)) = none := by decide +kernel

theorem test_witness_LinksSendTheirFrames :
    base.links[(0 : Fin 8)].state = .off ∧
    (let s := base.onLink 0 fun l => { l with state := .paused, relay := .sending 2 [0xC1#8, 0x05#8] };
      s.powered = true ∧ s.links[(0 : Fin 8)].state ≠ .off ∧ s.links[(0 : Fin 8)].relay = .sending 2 [0xC1#8, 0x05#8]) ∧
    (∀ tag b rest, base.links[(0 : Fin 8)].relay ≠ .sending tag (b :: rest)) :=
  ⟨by decide +kernel, by decide +kernel, nofun⟩

theorem test_witness_MixOfASamplePeriod :
    (busy.powered = true ∧ settle busy = settle busy ∧ busy.boundary.reset = false ∧ busy.device.resetState ≠ .ready ∧
      busy.mgmt.requests = []) ∧
    (let s := base.onBoundary fun b => { b with taken := true, reset := true };
      s.powered = true ∧ s.boundary.taken = true ∧ s.boundary.reset = true) ∧
    (let s := (last base).onDevice fun d => { d with resetState := .ready };
      s.powered = true ∧ s.boundary.taken = false ∧ s.gen.blockSize ≤ s.gen.position + 1 ∧
        s.device.resetState = .ready) := by
  refine ⟨⟨rfl, rfl, ?_⟩, ?_⟩ <;> decide +kernel

theorem test_witness_PeaksAndRowsOfAPeriod :
    base.powered = true ∧ settle base = settle base ∧ (after .samplePeriod base).gen.periodMode = .setup ∧
    (after .samplePeriod (operating base)).gen.periodMode = .operate ∧ 255 < (after .samplePeriod base).gen.records := by
  refine ⟨rfl, rfl, ?_⟩
  decide +kernel

theorem test_witness_RampsReachTheirTarget :
    0 < (writeGain 5 7 (settled 0)).remaining ∧ (settled 0).remaining = 0 ∧ base.powered = true := by decide

theorem test_witness_BlockBoundaryOpensTheNextBlock :
    (InPeriod (last base) ∧ (last base).gen.position + 1 = (last base).gen.blockSize ∧
      endPeriod (last base) = endPeriod (last base)) ∧
    ((endPeriod (last base)).mgmt.lane = .free ∧ (endPeriod (last base)).mgmt.blocksDue = []) ∧
    (endPeriod ((last base).onMgmt fun m => { m with lane := .message (.alarm ⟨.store .empty none 0 0, 0⟩) })).mgmt.lane ≠
      .free ∧
    ((last base).onBoundary fun b => { b with taken := true }).boundary.taken = true ∧
    base.gen.position + 1 < base.gen.blockSize := by
  refine ⟨⟨?_, ?_, rfl⟩, ?_⟩ <;> decide +kernel

theorem test_witness_PlayTimeTakesTheDueBlock :
    (let s := (last base).onUplink fun u => { u with ring := [⟨65534, []⟩, ⟨65535, [1]⟩], nextPlay := 65535 };
      let w := endPeriod s;
      InPeriod s ∧ s.gen.position + 1 = s.gen.blockSize ∧ w.device.resetState ≠ .ready ∧ w.clock.pendingRate = none ∧
        w.uplink.pendingConfig = none ∧
        w.uplink.ring.find? (fun r => decide (r.number = w.uplink.nextPlay)) = some ⟨65535, [1]⟩) ∧
    (let w := endPeriod (last base);
      (∀ b ∈ w.uplink.ring, b.number ≠ w.uplink.nextPlay) ∧ w.uplink.playedFlag = false) ∧
    (endPeriod ((last base).onUplink fun u => { u with playedFlag := true })).uplink.playedFlag = true ∧
    (endPeriod ((last base).onDevice fun d => { d with resetState := .ready })).device.resetState = .ready ∧
    (let w := endPeriod ((last base).onClock fun c => { c with pendingRate := some ⟨.k44, .x4⟩ });
      w.clock.pendingRate = some ⟨.k44, .x4⟩ ∧ (⟨.k44, .x4⟩ : Rate) ≠ w.gen.rate) ∧
    (let w := endPeriod ((last base).onUplink fun u => { u with pendingConfig := some ⟨8, 1, 1⟩ });
      w.uplink.pendingConfig = some ⟨8, 1, 1⟩ ∧
        (⟨8, 1, 1⟩ : BlockConfig) ≠ ⟨w.gen.blockSize, w.gen.records, w.gen.playback⟩) := by decide +kernel

/-- A sealed list due at the boundary in progress. -/
def sealed : State :=
  (patched [settled 0] [removal, .add ⟨6, 300, 5, false, 0⟩] (some 9) base).onBoundary fun b =>
    { b with taken := true, commit := true }

theorem test_witness_CommitAppliesEveryEdit :
    (PatchSound sealed ∧ sealed.powered = true ∧ sealed.boundary.commit = true ∧ sealed.engine.commit = some 9) ∧
    base.boundary.commit = false ∧
    (let s := base.onBoundary fun b => { b with commit := true };
      s.boundary.commit = true ∧ s.engine.commit = none) := by
  refine ⟨⟨?_, by decide +kernel, by decide +kernel, by decide +kernel⟩, by decide +kernel, by decide +kernel⟩
  exact
    { sorted := by unfold TableSorted; decide +kernel
      limits := ⟨by decide +kernel, by decide +kernel⟩
      edits := by decide +kernel
      distinct := by decide +kernel
      fits := by
        intro e he
        have : e = removal ∨ e = .add ⟨6, 300, 5, false, 0⟩ := by
          simpa using (show e ∈ [removal, Edit.add ⟨6, 300, 5, false, 0⟩] from he)
        rcases this with rfl | rfl
        · exact (by decide +kernel : (findRecord sealed.engine.table 5 300).isSome = true)
        · exact (by decide +kernel : findRecord sealed.engine.table 6 300 = none)
      accepted := by decide +kernel
      store := trivial }

theorem test_witness_RateChangeStartsAnew :
    (let s := ((base.onBoundary fun b => { b with rate := some ⟨.k44, .x4⟩ }).onClock fun c =>
        { c with lock := .locked }).onLink 0 fun l => { l with state := .paused };
      s.powered = true ∧ s.boundary.rate = some ⟨.k44, .x4⟩ ∧ s.clock.lock ≠ .free ∧ s.links[(0 : Fin 8)].state ≠ .off ∧
        s.links[(1 : Fin 8)].state = .off) ∧ base.boundary.rate = none := by decide +kernel

theorem test_witness_ResetRestartsThePart :
    (base.onBoundary fun b => { b with reset := true }).boundary.reset = true ∧ base.boundary.reset = false ∧
    (let s := (base.onLink 3 fun l => { l with state := .active }).onClock fun c =>
        { c with lock := .locked, selected := some (.link 3) };
      (s.clock.lock = .pullIn ∨ s.clock.lock = .locked) ∧ s.clock.selected = some (.link 3) ∧ s.device.store = .empty ∧
        s.links[(3 : Fin 8)].state = .active ∧ s.links[(2 : Fin 8)].state = .off) ∧
    ¬ (base.clock.lock = .pullIn ∨ base.clock.lock = .locked) := by decide +kernel

theorem test_witness_LossAndFallback :
    (let s := base.onUplink fun u => { u with lossCount := 32 };
      s.powered = true ∧ s.uplink.state = .up ∧ 32 ≤ s.uplink.lossCount) ∧
    (base.onUplink fun u => { u with lossCount := 31 }).uplink.lossCount < 32 ∧
    (let s := (stored (.valid (patch false true)) base).onUplink fun u => { u with state := .lost };
      s.uplink.state = .lost ∧ s.device.store = .valid (patch false true) ∧ (patch false true).fallback = true) ∧
    (base.onBoundary fun b => { b with fallback := true }).boundary.fallback = true ∧ base.uplink.state = .up ∧
    base.boundary.fallback = false := by decide +kernel

/-! ### Witnesses: downstream frames and the patch table's requests -/

/-- A DOWN block of the block size and channel count of reset, one container short of its body where `short`. -/
def down (number : Nat) (short : Bool) : DownBlock :=
  ⟨number, 16, 256, if short then 16396 else 16400, List.replicate 4096 0⟩

theorem test_witness_DownstreamFramesAreTaken :
    InPeriod base ∧ (down 65535 false).number < 65536 ∧
    (down 1 true).bodyLength ≠ 16 + 4 * (base.gen.playback * base.gen.blockSize) ∧
    ((down 1 false).bodyLength = 16 + 4 * (base.gen.playback * base.gen.blockSize) ∧
      (down 1 false).containers.length = base.gen.playback * base.gen.blockSize ∧
      (down 1 false).blockSize = base.gen.blockSize ∧ (down 1 false).channels = base.gen.playback) ∧
    ((4 : Int) - base.uplink.nextPlay) % 65536 < 4 ∧ (∀ r ∈ base.uplink.ring, r.number ≠ 4) ∧
    (∃ r ∈ busy.uplink.ring, r.number = 2) ∧ 4 ≤ ((5 : Int) - base.uplink.nextPlay) % 65536 ∧
    ((32768 : Int) - base.uplink.nextPlay) % 65536 < 32768 ∧ 32768 ≤ ((32769 : Int) - base.uplink.nextPlay) % 65536 ∧
    base.uplink.state = .up ∧
    (base.onUplink fun u => { u with state := .lost }).uplink.state = .lost ∧
    placesInUse (hearFrame base) < 16 ∧
    16 ≤ placesInUse (hearFrame (base.onMgmt fun m => { m with replies := List.replicate 16 ⟨1, 0x18, Answer.ok⟩ })) := by
  refine ⟨?_, ?_, ?_, ?_, ?_, ?_, ?_, ?_, ?_, ?_, ?_, ?_, ?_, ?_⟩ <;> decide +kernel

/-- Pair (5, 300)'s commands. -/
def xpAddOf (e : PatchEntry) : Instr :=
  .xpAdd 1 (some ⟨e.source.val, e.destination.val, e.setGain, e.muted.toNat, e.ramp.val⟩)
def xpRemoveOf (src dst : Slot) : Instr := .xpRemove 1 (some ⟨src.val, dst.val⟩)

theorem test_witness_ChangeListRequests_add :
    Takes (.xpAdd 1 (some ⟨528, 0, 0, 0, 0⟩)) [] (ask (.xpAdd 1 (some ⟨528, 0, 0, 0, 0⟩)) base) ∧
    InRange entry.setGain ∧
    (Takes (xpAddOf entry) [] (ask (xpAddOf entry) (patched [] [] (some 3) base)) ∧
      (patched [] [] (some 3) base).engine.commit ≠ none) ∧
    (Takes (xpAddOf entry) [] (ask (xpAddOf entry) base) ∧ base.engine.commit = none ∧
      findRecord base.engine.table 5 300 = none ∧ findEdit base.engine.edits 5 300 = none ∧
      base.engine.edits.length < 64) ∧
    (let s := patched [] (List.replicate 64 (.add ⟨6, 300, 0, false, 0⟩)) none base;
      Takes (xpAddOf entry) [] (ask (xpAddOf entry) s) ∧ s.engine.commit = none ∧ findRecord s.engine.table 5 300 = none ∧
        findEdit s.engine.edits 5 300 = none ∧ 64 ≤ s.engine.edits.length) ∧
    (let s := patched [settled 0] [] none base;
      Takes (xpAddOf entry) [] (ask (xpAddOf entry) s) ∧ (findRecord s.engine.table 5 300).isSome ∧
        findEdit s.engine.edits 5 300 = none) ∧
    (let s := patched [settled 0] [removal] none base;
      Takes (xpAddOf entry) [] (ask (xpAddOf entry) s) ∧ findRecord s.engine.table 5 300 = some (settled 0) ∧
        findEdit s.engine.edits 5 300 = some removal) :=
  ⟨takes_ask rfl (by decide +kernel) rfl, ⟨by decide, by decide⟩,
    ⟨takes_ask rfl (by decide +kernel) rfl, by decide +kernel⟩, ⟨takes_ask rfl (by decide +kernel) rfl, by decide +kernel⟩,
    ⟨takes_ask rfl (by decide +kernel) rfl, by decide +kernel⟩, ⟨takes_ask rfl (by decide +kernel) rfl, by decide +kernel⟩,
    ⟨takes_ask rfl (by decide +kernel) rfl, by decide +kernel⟩⟩

theorem test_witness_ChangeListRequests_remove :
    Takes (.xpRemove 1 (some ⟨0, 528⟩)) [] (ask (.xpRemove 1 (some ⟨0, 528⟩)) base) ∧
    (let s := patched [] [.add entry] none base;
      Takes (xpRemoveOf 5 300) [] (ask (xpRemoveOf 5 300) s) ∧ findRecord s.engine.table 5 300 = none ∧
        findEdit s.engine.edits 5 300 = some (.add entry)) ∧
    (let s := patched [settled 0] [] none base;
      Takes (xpRemoveOf 5 300) [] (ask (xpRemoveOf 5 300) s) ∧ (findRecord s.engine.table 5 300).isSome ∧
        findEdit s.engine.edits 5 300 = none ∧ s.engine.edits.length < 64) ∧
    64 ≤ (patched [settled 0] (List.replicate 64 (.remove 6 300)) none base).engine.edits.length ∧
    (findEdit (patched [settled 0] [removal] none base).engine.edits 5 300).isSome ∧
    findRecord base.engine.table 5 300 = none ∧ findEdit base.engine.edits 5 300 = none ∧
    Takes (.patchDiscard 1 (some ())) [] (ask (.patchDiscard 1 (some ())) base) :=
  ⟨takes_ask rfl (by decide +kernel) rfl, ⟨takes_ask rfl (by decide +kernel) rfl, by decide +kernel⟩,
    ⟨takes_ask rfl (by decide +kernel) rfl, by decide +kernel⟩, by decide +kernel, by decide +kernel, by decide +kernel,
    by decide +kernel, takes_ask rfl (by decide +kernel) rfl⟩

theorem test_witness_ImmediateRequests :
    (let c : Instr := .xpGain 1 (some ⟨5, 300, 8388607, 7⟩);
      Takes c [] (ask c (patched [settled 0] [] none base)) ∧ InRange 8388607 ∧
        findRecord (patched [settled 0] [] none base).engine.table 5 300 = some (settled 0)) ∧
    (let s := patched [] [.add entry] none base;
      findRecord s.engine.table 5 300 = none ∧ findEdit s.engine.edits 5 300 = some (.add entry) ∧
        s.engine.commit = none) ∧
    (patched [] [.add entry] (some 1) base).engine.commit ≠ none ∧
    (let c : Instr := .xpMute 1 (some ⟨5, 300, 1⟩);
      Takes c [] (ask c base) ∧ findEdit base.engine.edits 5 300 = none) ∧
    (let c : Instr := .xpRamp 1 (some ⟨5, 300, 7⟩); Takes c [] (ask c base)) ∧
    (let c : Instr := .xpGain 1 (some ⟨5, 300, 8388608, 7⟩); Takes c [] (ask c base)) ∧
    (let c : Instr := .xpMute 1 (some ⟨5, 300, 2⟩); Takes c [] (ask c base)) ∧
    (let c : Instr := .xpRamp 1 (some ⟨5, 300, 8⟩); Takes c [] (ask c base)) :=
  ⟨⟨takes_ask rfl (by decide +kernel) rfl, ⟨by decide, by decide⟩, by decide +kernel⟩, by decide +kernel, by decide +kernel,
    ⟨takes_ask rfl (by decide +kernel) rfl, by decide +kernel⟩, takes_ask rfl (by decide +kernel) rfl,
    takes_ask rfl (by decide +kernel) rfl, takes_ask rfl (by decide +kernel) rfl, takes_ask rfl (by decide +kernel) rfl⟩

theorem test_witness_PatchReads :
    (let c : Instr := .xpRead 1 (some ⟨5, 300⟩);
      Takes c [] (ask c (patched [settled 0] [] none base)) ∧
        findRecord (patched [settled 0] [] none base).engine.table 5 300 = some (settled 0) ∧
        findEdit (patched [] [.add entry] none base).engine.edits 5 300 = some (.add entry) ∧
        findRecord base.engine.table 5 300 = none) ∧
    (let c : Instr := .xpRead 1 (some ⟨528, 0⟩); Takes c [] (ask c base)) ∧
    (let c : Instr := .patchList 1 (some ⟨1023, 8⟩); Takes c [] (ask c base)) ∧
    (let c : Instr := .patchList 1 (some ⟨1024, 9⟩); Takes c [] (ask c base)) :=
  ⟨⟨takes_ask rfl (by decide +kernel) rfl, by decide +kernel⟩, takes_ask rfl (by decide +kernel) rfl,
    takes_ask rfl (by decide +kernel) rfl, takes_ask rfl (by decide +kernel) rfl⟩

/-- A destination with 64 records. -/
def full : List Slot := List.replicate 64 300

theorem test_witness_CommitSealsAValidList :
    (let c : Instr := .patchCommit 1 (some ()); Takes c [] (ask c base)) ∧
    (sealed.engine.commit ≠ none ∧ base.engine.commit = none ∧ base.engine.edits = []) ∧
    (∀ n, PassesAt [] [.add entry] n) ∧
    ([Edit.add entry][0]? = some (.add entry) ∧ (∀ k < 0, PassesAt full [.add entry] k) ∧
      ¬ PassesAt full [.add entry] 0) := by
  refine ⟨takes_ask rfl (by decide +kernel) rfl, by decide +kernel, ?_, rfl, by omega, ?_⟩
  · intro n d hd
    cases n with
    | zero =>
      cases hd
      exact ⟨by decide +kernel, by decide +kernel⟩
    | succ n => simp at hd
  · intro h
    have := (h (.add entry) rfl).2
    revert this
    decide +kernel

/-! ### Witnesses: the rule unit's, the surfaces' and the links' requests -/

theorem test_witness_RuleUnitWrites :
    (let c : Instr := .ruleWrite 1 (some ⟨511, 1, 30, 4095, 4095, 255, [.echo 3 4095]⟩);
      Takes c [] (ask c base) ∧ Takes c [] (ask c (operating base)) ∧ base.device.mode = .setup ∧
        (operating base).device.mode = .operate ∧
        [RawAction.echo 3 4095].map readActionEntry = [some (.echo 3 4095)]) ∧
    (let c : Instr := .ruleWrite 1 (some ⟨512, 0, 0, 0, 0, 0, []⟩); Takes c [] (ask c base)) ∧
    (let c : Instr := .ruleBlocks 1 (some ⟨0, 500, 12⟩);
      Takes c [] (ask c base) ∧ ∀ j : Fin 4, j ≠ 0 → base.rules.blocks[j].count = 0) ∧
    (let c : Instr := .ruleBlocks 1 (some ⟨4, 500, 13⟩); Takes c [] (ask c base)) ∧
    (let s := base.onRules fun u => { u with blocks := modifyEntry u.blocks 1 fun _ => ⟨511, 1⟩ };
      s.rules.blocks[(1 : Fin 4)].start ≤ 511 ∧
        511 < s.rules.blocks[(1 : Fin 4)].start + s.rules.blocks[(1 : Fin 4)].count) ∧
    (let c : Instr := .lawWrite 1 (some ⟨121, List.replicate 8 (-8388608)⟩); Takes c [] (ask c base)) ∧
    (let c : Instr := .lawWrite 1 (some ⟨122, List.replicate 8 8388608⟩); Takes c [] (ask c base)) :=
  ⟨⟨takes_ask rfl (by decide +kernel) rfl, takes_ask rfl (by decide +kernel) rfl, by decide +kernel, by decide +kernel,
      by decide +kernel⟩, takes_ask rfl (by decide +kernel) rfl,
    ⟨takes_ask rfl (by decide +kernel) rfl, by decide +kernel⟩, takes_ask rfl (by decide +kernel) rfl, by decide +kernel,
    takes_ask rfl (by decide +kernel) rfl, takes_ask rfl (by decide +kernel) rfl⟩

theorem test_witness_RuleUnitReads :
    (let c : Instr := .ruleRead 1 (some 511); Takes c [] (ask c base)) ∧
    (let c : Instr := .ruleRead 1 (some 512); Takes c [] (ask c base)) ∧
    (let c : Instr := .lawRead 1 (some 121); Takes c [] (ask c base)) ∧
    (let c : Instr := .lawRead 1 (some 122); Takes c [] (ask c base)) :=
  ⟨takes_ask rfl (by decide +kernel) rfl, takes_ask rfl (by decide +kernel) rfl, takes_ask rfl (by decide +kernel) rfl,
    takes_ask rfl (by decide +kernel) rfl⟩

/-- Surface link 2 ONLINE with these updates. -/
def online (set : List Update) : State := base.onSurface 2 fun f => { f with state := .online, updates := set }

theorem test_witness_SurfaceRequests :
    (let c : Instr := .surfaceSend 1 (some ⟨2, 10, 4095, 16⟩);
      Takes c [] (ask c base) ∧ Takes c [] (ask c (online [])) ∧ base.surfaces[(2 : Fin 4)].state ≠ .online ∧
        (online []).surfaces[(2 : Fin 4)].state = .online) ∧
    (∃ u ∈ (online [⟨.meter, 4095, 1, 0⟩]).surfaces[(2 : Fin 4)].updates, u.kind = .meter ∧ u.address = 4095) ∧
    (online ((List.range 31).map fun n => ⟨.lamp, n, 0, 0⟩)).surfaces[(2 : Fin 4)].updates.length < 32 ∧
    (let s := online ((List.range 32).map fun n => ⟨.lamp, n, 0, 0⟩);
      (∀ u ∈ s.surfaces[(2 : Fin 4)].updates, ¬ (u.kind = .meter ∧ u.address = 4095)) ∧
        32 ≤ s.surfaces[(2 : Fin 4)].updates.length) ∧
    (let c : Instr := .surfaceSend 1 (some ⟨2, 8, 0, 1024⟩); Takes c [] (ask c base)) ∧
    (let c : Instr := .surfaceConfig 1 (some ⟨3, 64⟩); Takes c [] (ask c base)) ∧
    (let c : Instr := .surfaceConfig 1 (some ⟨3, 65⟩); Takes c [] (ask c base)) ∧
    (let c : Instr := .surfaceStatus 1 (some 3); Takes c [] (ask c base)) ∧
    (let c : Instr := .surfaceStatus 1 (some 4); Takes c [] (ask c base)) :=
  ⟨⟨takes_ask rfl (by decide +kernel) rfl, takes_ask rfl (by decide +kernel) rfl, by decide +kernel, by decide +kernel⟩,
    by decide +kernel, by decide +kernel, by decide +kernel, takes_ask rfl (by decide +kernel) rfl,
    takes_ask rfl (by decide +kernel) rfl, takes_ask rfl (by decide +kernel) rfl, takes_ask rfl (by decide +kernel) rfl,
    takes_ask rfl (by decide +kernel) rfl⟩

/-- Link 3 in a state, with this relay. -/
def linked (state : LinkState) (relay : Relay) : State := base.onLink 3 fun l => { l with state := state, relay := relay }

theorem test_witness_LinkConfigActsByState :
    (let c : Instr := .linkConfig 1 (some ⟨3, 1, 0xFFFFFFFF#32, 2⟩);
      Takes c [] (ask c base) ∧ Takes c [] (ask c (linked .fault .idle)) ∧
        Takes c [] (ask c (linked .active (.sending 4 [])))) ∧
    (configuredState true .park (linked .fault .idle).links[(3 : Fin 8)] = .off ∧
      configuredState true .auto base.links[(3 : Fin 8)] = .align ∧
      configuredState true .auto (linked .active .idle).links[(3 : Fin 8)] = .active) ∧
    (let c : Instr := .linkConfig 1 (some ⟨3, 0, 0, 0⟩);
      let s := (linked .active .idle).onClock fun k => { k with lock := .locked, selected := some (.link 3) };
      Takes c [] (ask c s) ∧ configuredState false .auto s.links[(3 : Fin 8)] = .off ∧
        s.links[(3 : Fin 8)].state = .active ∧ s.clock.lock = .locked ∧ s.clock.selected = some (.link 3)) ∧
    (let c : Instr := .linkConfig 1 (some ⟨3, 1, 0, 3⟩); Takes c [] (ask c base)) :=
  ⟨⟨takes_ask rfl (by decide +kernel) rfl, takes_ask rfl (by decide +kernel) rfl, takes_ask rfl (by decide +kernel) rfl⟩,
    by decide +kernel, ⟨takes_ask rfl (by decide +kernel) rfl, by decide +kernel⟩,
    takes_ask rfl (by decide +kernel) rfl⟩

theorem test_witness_RestartPauseResume :
    (let c : Instr := .linkRestart 1 (some 3);
      Takes c [] (ask c base) ∧ base.links[(3 : Fin 8)].state = .off ∧ Takes c [] (ask c (linked .paused .idle)) ∧
        (linked .paused .idle).links[(3 : Fin 8)].state ≠ .off) ∧
    (let c : Instr := .linkRestart 1 (some 8); Takes c [] (ask c base)) ∧
    (let c : Instr := .linkPause 1 (some 7); Takes c [] (ask c base)) ∧
    (let c : Instr := .linkPause 1 (some 8); Takes c [] (ask c base)) ∧
    (let c : Instr := .linkResume 1 (some 7); Takes c [] (ask c base)) :=
  ⟨⟨takes_ask rfl (by decide +kernel) rfl, by decide +kernel, takes_ask rfl (by decide +kernel) rfl, by decide +kernel⟩,
    takes_ask rfl (by decide +kernel) rfl, takes_ask rfl (by decide +kernel) rfl, takes_ask rfl (by decide +kernel) rfl,
    takes_ask rfl (by decide +kernel) rfl⟩

theorem test_witness_LinkStatusAndCommands :
    (let c : Instr := .linkStatus 1 (some 7); Takes c [] (ask c base)) ∧
    (let c : Instr := .linkStatus 1 (some 8); Takes c [] (ask c base)) ∧
    (let c : Instr := .converterCommand 1 (some ⟨3, List.replicate 9 0⟩); Takes c [] (ask c base)) ∧
    (let c : Instr := .converterCommand 1 (some ⟨3, List.replicate 8 0⟩);
      Takes c [] (ask c base) ∧ Takes c [] (ask c (linked .active .idle)) ∧
        Takes c [] (ask c (linked .paused (.awaiting 2 0 none))) ∧ base.links[(3 : Fin 8)].state = .off ∧
        (linked .paused (.awaiting 2 0 none)).links[(3 : Fin 8)].relay ≠ .idle ∧
        (linked .active .idle).links[(3 : Fin 8)].relay = .idle) :=
  ⟨takes_ask rfl (by decide +kernel) rfl, takes_ask rfl (by decide +kernel) rfl, takes_ask rfl (by decide +kernel) rfl,
    takes_ask rfl (by decide +kernel) rfl, takes_ask rfl (by decide +kernel) rfl, takes_ask rfl (by decide +kernel) rfl,
    by decide +kernel, by decide +kernel, by decide +kernel⟩

/-! ### Witnesses: the clock unit's, the meter unit's and the device's requests -/

/-- `s` with the clock unit in a lock state, following or having lost a reference. -/
def clocked (lock : LockState) (selected lost : Option Reference) : State :=
  base.onClock fun c =>
    { c with lock := lock, selected := selected, lost := lost, holdStart := if lock = .holdover then some 0 else none }

/-- A qualified LINK 3. -/
def ready : Candidate := ⟨.link 3, .qualified, none, some 512, some 0, some 32768⟩

theorem test_witness_CandidatesReplaceTheList :
    (let c : Instr := .clockCandidates 1 (some ⟨[3, 8, 9], 50, 60000, 1⟩);
      Takes c [] (ask c base) ∧ ([Reference.link 3, .wordclock, .internal]).Nodup) ∧
    (let s := base.onClock fun c => { c with candidates := [ready] };
      bestCandidate s.clock = some ready ∧ s.clock.lock = .free) ∧
    bestCandidate base.clock = none ∧
    (let s := clocked .holdover none (some .wordclock);
      s.clock.holdStart = some 0 ∧ 0 + 1000 * timePerMs ≤ (s.onClock fun c => { c with time := 3612672000 }).clock.time ∧
        ¬ 0 + 1000 * timePerMs ≤ s.clock.time) ∧
    (let s := clocked .locked (some .wordclock) none;
      s.clock.lock = .locked ∧ s.clock.selected = some .wordclock ∧ Reference.wordclock ∉ [Reference.link 3] ∧
        Reference.wordclock ∈ [Reference.link 3, .wordclock].takeWhile (fun r => decide (r ≠ .internal)) ∧
        [Reference.link 3, .wordclock].idxOf ready.ref < [Reference.link 3, .wordclock].idxOf .wordclock ∧
        ¬ [Reference.wordclock, .link 3].idxOf ready.ref < [Reference.wordclock, .link 3].idxOf .wordclock) ∧
    (clocked .pullIn (some (.link 3)) none).clock.lock = .pullIn ∧
    (let c : Instr := .clockCandidates 1 (some ⟨[3, 3], 49, 60001, 2⟩); Takes c [] (ask c base)) ∧
    (let c : Instr := .clockCandidates 1 (some ⟨[], 2000, 1000, 0⟩); Takes c [] (ask c base)) ∧
    (let c : Instr := .clockCandidates 1 (some ⟨[8], 2000, 999, 0⟩); Takes c [] (ask c base)) :=
  ⟨⟨takes_ask rfl (by decide +kernel) rfl, by decide⟩, by decide +kernel, by decide +kernel, by decide +kernel,
    by decide +kernel, by decide +kernel, takes_ask rfl (by decide +kernel) rfl, takes_ask rfl (by decide +kernel) rfl,
    takes_ask rfl (by decide +kernel) rfl⟩

theorem test_witness_ClockRateAndStatus :
    (let c : Instr := .clockRate 1 (some ⟨1, 2⟩); Takes c [] (ask c base) ∧ Takes c [] (ask c (operating base))) ∧
    (let c : Instr := .clockRate 1 (some ⟨2, 0⟩); Takes c [] (ask c base)) ∧
    (let c : Instr := .clockRate 1 (some ⟨0, 3⟩); Takes c [] (ask c base)) ∧
    (let c : Instr := .clockStatus 1 (some ());
      Takes c [] (ask c base) ∧ Takes c [] (ask c (clocked .holdover none (some .wordclock)))) ∧
    (base.boundary.taken = false ∧ base.clock.lock ≠ .holdover) ∧
    (let s := clocked .holdover none (some .wordclock); s.clock.lock = .holdover ∧ s.clock.holdStart = some 0) :=
  ⟨⟨takes_ask rfl (by decide +kernel) rfl, takes_ask rfl (by decide +kernel) rfl⟩, takes_ask rfl (by decide +kernel) rfl,
    takes_ask rfl (by decide +kernel) rfl,
    ⟨takes_ask rfl (by decide +kernel) rfl, takes_ask rfl (by decide +kernel) rfl⟩, by decide +kernel, by decide +kernel⟩

/-- Output 1 with a setting waiting, disabled or at the last position of a divisor of 3. -/
def output (enabled : Bool) (position : Option Nat) : State :=
  base.onClock fun c =>
    { c with outputs := modifyEntry c.outputs 1 fun _ => ⟨⟨enabled, 3, false⟩, some ⟨true, 256, true⟩, position⟩ }

theorem test_witness_WordClockOutputs :
    (let c : Instr := .wclkOut 1 (some ⟨1, 1, 256, 1⟩); Takes c [] (ask c base)) ∧
    (let c : Instr := .wclkOut 1 (some ⟨1, 1, 257, 1⟩); Takes c [] (ask c base)) ∧
    (let c : Instr := .wclkOut 1 (some ⟨2, 1, 0, 1⟩); Takes c [] (ask c base)) ∧
    ((output false none).clock.outputs[(1 : Fin 2)].waiting = some ⟨true, 256, true⟩ ∧
      (output false none).clock.outputs[(1 : Fin 2)].active.enabled = false ∧
      (output true (some 2)).clock.outputs[(1 : Fin 2)].position =
        some ((output true (some 2)).clock.outputs[(1 : Fin 2)].active.divisor - 1)) ∧
    (base.clock.outputs[(0 : Fin 2)].waiting = none ∧
      (output true (some 1)).clock.outputs[(1 : Fin 2)].active.enabled = true ∧
      (output true (some 1)).clock.outputs[(1 : Fin 2)].position ≠ some 2) :=
  ⟨takes_ask rfl (by decide +kernel) rfl, takes_ask rfl (by decide +kernel) rfl, takes_ask rfl (by decide +kernel) rfl,
    by decide +kernel, by decide +kernel⟩

theorem test_witness_MeterRequests :
    (let c : Instr := .meterPoints 1 (some ⟨63, [⟨1, 1, 527, some (3, 4095)⟩]⟩); Takes c [] (ask c base)) ∧
    (let c : Instr := .meterPoints 1 (some ⟨63, [⟨1, 1, 0, none⟩, ⟨0, 2, 528, none⟩]⟩); Takes c [] (ask c base)) ∧
    (let c : Instr := .meterConfig 1 (some 255); Takes c [] (ask c base)) ∧
    (let c : Instr := .meterConfig 1 (some 0); Takes c [] (ask c base)) ∧
    (let c : Instr := .meterThresholds 1 (some (List.replicate 16 8388608));
      Takes c [] (ask c base) ∧ (List.replicate 16 8388608).Pairwise (· ≤ ·)) ∧
    (let c : Instr := .meterThresholds 1 (some (1 :: List.replicate 15 0));
      Takes c [] (ask c base) ∧ ¬ (1 :: List.replicate 15 0).Pairwise (· ≤ ·)) :=
  ⟨takes_ask rfl (by decide +kernel) rfl, takes_ask rfl (by decide +kernel) rfl, takes_ask rfl (by decide +kernel) rfl,
    takes_ask rfl (by decide +kernel) rfl, ⟨takes_ask rfl (by decide +kernel) rfl, by decide⟩,
    ⟨takes_ask rfl (by decide +kernel) rfl, by decide⟩⟩

theorem test_witness_ModeSetMovesTheMode :
    (let c : Instr := .modeSetSetup 1 (some 0); Takes c [] (ask c base) ∧ Takes c [] (ask c (operating base))) ∧
    (let c : Instr := .modeSetOperate 1 (some 1); Takes c [] (ask c base) ∧ Takes c [] (ask c (operating base))) ∧
    (let c : Instr := .modeSetSetup 1 (some 2); Takes c [] (ask c base)) :=
  ⟨⟨takes_ask rfl (by decide +kernel) rfl, takes_ask rfl (by decide +kernel) rfl⟩,
    ⟨takes_ask rfl (by decide +kernel) rfl, takes_ask rfl (by decide +kernel) rfl⟩, takes_ask rfl (by decide +kernel) rfl⟩

theorem test_witness_BlockConfigurations :
    (let c : Instr := .uplinkConfig 1 (some ⟨64, 256, 1⟩);
      Takes c [] (ask c base) ∧ Takes c [] (ask c (operating base)) ∧ IsBlockSize 64) ∧
    (let c : Instr := .uplinkConfig 1 (some ⟨64, 257, 1⟩); Takes c [] (ask c base)) ∧
    (let c : Instr := .uplinkConfig 1 (some ⟨4, 256, 0⟩); Takes c [] (ask c base) ∧ ¬ IsBlockSize 4) ∧
    (base.onBoundary fun b => { b with config := some ⟨64, 256, 1⟩ }).boundary.config = some ⟨64, 256, 1⟩ ∧
    base.boundary.config = none :=
  ⟨⟨takes_ask rfl (by decide +kernel) rfl, takes_ask rfl (by decide +kernel) rfl, .inr (.inr (.inr rfl))⟩,
    takes_ask rfl (by decide +kernel) rfl, ⟨takes_ask rfl (by decide +kernel) rfl, by unfold IsBlockSize; omega⟩,
    by decide +kernel, by decide +kernel⟩

theorem test_witness_StoreWritesAndCompletes :
    (let c : Instr := .storeWrite 1 (some ⟨1, 0⟩);
      Takes c [] (ask c base) ∧ Takes c [] (ask c (stored (.writing (patch true true) 3 0) base))) ∧
    (∀ p tag since, base.device.store ≠ .writing p tag since) ∧
    (let c : Instr := .storeWrite 1 (some ⟨2, 0⟩); Takes c [] (ask c base)) ∧
    (patched (List.replicate 256 (settled 0)) [] none base).engine.table.length ≤ 256 ∧
    256 < (patched (List.replicate 257 (settled 0)) [] none base).engine.table.length ∧
    (let c : Instr := .storeStatus 1 (some ());
      Takes c [] (ask c base) ∧ Takes c [] (ask c (stored .incomplete base)) ∧
        Takes c [] (ask c (stored (.valid (patch true true)) base))) :=
  ⟨⟨takes_ask rfl (by decide +kernel) rfl, takes_ask rfl (by decide +kernel) rfl⟩, nofun,
    takes_ask rfl (by decide +kernel) rfl, by decide +kernel, by decide +kernel, takes_ask rfl (by decide +kernel) rfl,
    takes_ask rfl (by decide +kernel) rfl, takes_ask rfl (by decide +kernel) rfl⟩

theorem test_witness_DeviceRequests :
    Takes (.unknown 1 0x19) [] (base.onMgmt fun m => { m with requests := [⟨1, 0x19, []⟩] }) ∧
    (let c : Instr := .countersRead 1 (some ⟨2, 464, 64, 1⟩); Takes c [] (ask c base)) ∧
    (let c : Instr := .countersRead 1 (some ⟨2, 465, 64, 1⟩); Takes c [] (ask c base)) ∧
    (let c : Instr := .countersRead 1 (some ⟨6, 0, 0, 0⟩); Takes c [] (ask c base)) ∧
    (let c : Instr := .countersRead 1 (some ⟨7, 0, 0, 2⟩); Takes c [] (ask c base)) ∧
    (let c : Instr := .deviceInfo 1 (some ()); Takes c [] (ask c base)) ∧
    (let c : Instr := .deviceReset 1 (some ());
      Takes c [] (ask c base) ∧ base.device.resetState = .idle ∧
        (base.onDevice fun d => { d with resetState := .ready }).device.resetState ≠ .idle) :=
  ⟨⟨⟨rfl, rfl⟩, _, rfl, by decide +kernel⟩, takes_ask rfl (by decide +kernel) rfl, takes_ask rfl (by decide +kernel) rfl,
    takes_ask rfl (by decide +kernel) rfl, takes_ask rfl (by decide +kernel) rfl, takes_ask rfl (by decide +kernel) rfl,
    takes_ask rfl (by decide +kernel) rfl, by decide +kernel⟩

/-! ### Witnesses: the upstream lane, the links and the clock unit's events -/

/-- `base` with this on the lane. -/
def sending (lane : Lane) : State := base.onMgmt fun m => { m with lane := lane }

theorem test_witness_TheLaneKeepsItsOrder :
    (let b : UpBlock := ⟨0, 0, 16, 1, 1, Rate.base, .setup, .up, false, 1, 0, []⟩;
      (sending (.block b)).mgmt.lane = .block b) ∧
    (let m : Message := .reply ⟨1, 0x72, Answer.ok⟩; (sending (.message m)).mgmt.lane = .message m) ∧
    (InPeriod base ∧ base.mgmt.lane = .free ∧ base.mgmt.blocksDue = [] ∧ base.mgmt.frameCount < 16) ∧
    (busy.mgmt.alarms ≠ [] ∧ busy.mgmt.lane = .free) ∧
    (let s := base.onMgmt fun m => { m with replies := [⟨1, 0x18, Answer.ok⟩] };
      s.mgmt.alarms = [] ∧ s.uplink.state = .up ∧ s.mgmt.replies = [⟨1, 0x18, Answer.ok⟩] ∧
        (s.onUplink fun u => { u with state := .lost }).uplink.state = .lost) ∧
    (let s := base.onMgmt fun m => { m with meterSlot := some ⟨⟨0, 0, 0, 1, false, []⟩, 8, false, false⟩ };
      s.mgmt.meterSlot = some ⟨⟨0, 0, 0, 1, false, []⟩, 8, false, false⟩ ∧ 8 ≤ 8 ∧ s.mgmt.events = []) ∧
    (base.onMgmt fun m => { m with events := [⟨0, .press, 0, 1, 0, 0⟩] }).mgmt.events ≠ [] ∧ base.mgmt.meterSlot = none ∧
    16 ≤ (base.onMgmt fun m => { m with frameCount := 16 }).mgmt.frameCount ∧
    (∀ e ∈ busy.mgmt.alarms, e.alarm.key ≠ AlarmKey.store) ∧
    busy.mgmt.alarms = [] ++ ⟨.clockState .free none Rate.base none 0, 3⟩ :: [] := by decide +kernel

/-- Link 3 in a state with these frame periods, oldest first. -/
def framed (state : LinkState) (frames : List FramePeriod) : State :=
  base.onLink 3 fun l => { l with state := state, frames := frames }

theorem test_witness_FrameStartsTakeTheEarliestWindow :
    (let s := framed .align [⟨1, .started⟩, ⟨0, .unstarted⟩];
      InPeriod s ∧ s.links[(3 : Fin 8)].state = .align ∧
        s.links[(3 : Fin 8)].frames = [⟨1, .started⟩] ++ ⟨0, .unstarted⟩ :: []) ∧
    (4 * 128 ≤ base.clock.periodTicks ∧ ¬ 4 * 129 ≤ base.clock.periodTicks) ∧
    (∀ f ∈ (framed .paused [⟨0, .started⟩]).links[(3 : Fin 8)].frames, f.status ≠ .unstarted) ∧
    base.links[(3 : Fin 8)].state = .off := by decide +kernel

/-- The bytes of a good rack frame at ×4: sequence 5, eight slots of 0. -/
def goodBytes : List Byte := 5 :: List.replicate 34 0 ++ [check8 (5 :: List.replicate 34 0)]

/-- R62, R67: what was judged in PAUSED is presented once the link has been resumed in OPERATE. -/
theorem test_resume_presents :
    (after (.linkResume 1 (some 3)) (ask (.linkResume 1 (some 3)) (operating
      (framed .paused [⟨1, .judged ⟨false, .repeated, Vector.replicate 32 5⟩⟩, ⟨0, .started⟩])))).links[(3 : Fin 8)].frames =
        [⟨1, .judged ⟨true, .repeated, Vector.replicate 32 5⟩⟩, ⟨0, .started⟩] := by decide +kernel

/-- R62, R68: the frame period whose judgement enters FAULT is not presented, the one before it is. -/
theorem test_fault_frames :
    (let l := (after (.converterFrame 3 []) ((framed .active
        [⟨1, .judged ⟨true, .good, Vector.replicate 32 5⟩⟩, ⟨0, .started⟩]).onLink 3 fun l =>
          { l with errors := 250 })).links[(3 : Fin 8)];
      l.state = .fault ∧ l.counters.bad = 1 ∧ l.run = 1 ∧ l.frames =
        [⟨1, .judged ⟨true, .good, Vector.replicate 32 5⟩⟩,
          ⟨0, .judged ⟨false, .repeated, Vector.replicate 32 0⟩⟩]) := by decide +kernel

theorem test_witness_JudgementsCountAndConceal :
    (let s := framed .active [⟨1, .started⟩];
      InPeriod s ∧ s.links[(3 : Fin 8)].state = .active ∧ s.links[(3 : Fin 8)].relay = .idle ∧
        s.links[(3 : Fin 8)].frames = [] ++ ⟨1, .started⟩ :: [] ∧ s.links[(3 : Fin 8)].reference = none) ∧
    (let s := (framed .align [⟨1, .judged ⟨false, .good, Vector.replicate 32 0⟩⟩, ⟨0, .started⟩]).onLink 3 fun l =>
        { l with goodRun := 7 };
      s.links[(3 : Fin 8)].state = .align ∧ 8 ≤ s.links[(3 : Fin 8)].goodRun + 1 ∧
        s.links[(3 : Fin 8)].frames = [⟨1, .judged ⟨false, .good, Vector.replicate 32 0⟩⟩] ++ ⟨0, .started⟩ :: []) ∧
    (framed .paused [⟨0, .started⟩]).links[(3 : Fin 8)].state = .paused ∧
    (goodBytes.length = 4 * slotsPerLink .x4 + 4 ∧ goodBytes.getLast? = some (check8 goodBytes.dropLast) ∧
      goodBytes.head? = some (4 + 1) ∧ (5 : Byte) ≠ 5 + 1) ∧
    ([] : List Byte).length ≠ 4 * slotsPerLink .x1 + 4 ∧
    (framed .active [⟨1, .unstarted⟩]).links[(3 : Fin 8)].frames = [] ++ ⟨1, .unstarted⟩ :: [] ∧
    (247 + 8 ≤ 255 ∧ 255 < 248 + 8 ∧ 14 < 15) ∧
    (let s := framed .active [⟨1, .unstarted⟩, ⟨0, .started⟩];
      s.links[(3 : Fin 8)].frames = [] ++ ⟨1, .unstarted⟩ :: ⟨0, .started⟩ :: []) ∧
    (framed .active [⟨0, .unstarted⟩]).links[(3 : Fin 8)].frames = [] ++ ⟨0, .unstarted⟩ :: [] := by decide +kernel

theorem test_witness_JudgementsCountAndConceal_behind :
    ∃ u, exec (.missingFrame 3) (framed .active [⟨1, .unstarted⟩, ⟨0, .started⟩]) = .next u := ⟨_, rfl⟩

/-- Link 3 ACTIVE at ×4, a frame of this age started and the relay AWAITING for `count` periods with this gathered. -/
def gatheringAt (count age : Nat) (gathered : Option (Nat × List Byte)) : State :=
  ((framed .active [⟨age, .started⟩]).onLink 3 fun l => { l with relay := .awaiting 6 count gathered }).onGen fun g =>
    { g with rate := ⟨.k48, .x4⟩ }

/-- The same in the tenth period counted, with the frame of that period. -/
def gathering (gathered : Option (Nat × List Byte)) : State := gatheringAt 9 0 gathered

theorem test_witness_RepliesAreGathered :
    (let s := gathering (some (2, [0x11#8]));
      InPeriod s ∧ s.links[(3 : Fin 8)].state = .active ∧
        s.links[(3 : Fin 8)].frames = [] ++ ⟨0, .started⟩ :: [] ∧ goodBytes.length = 4 * slotsPerLink s.gen.rate.mult + 4 ∧
        goodBytes.getLast? = some (check8 goodBytes.dropLast) ∧ s.links[(3 : Fin 8)].reference = none ∧
        s.links[(3 : Fin 8)].relay = .awaiting 6 9 (some (2, [0x11#8]))) ∧
    (gathering (some (1, []))).links[(3 : Fin 8)].relay = .awaiting 6 9 (some (1, [])) ∧
    (gathering none).links[(3 : Fin 8)].relay = .awaiting 6 9 none ∧
    (gatheringAt 255 0 none).links[(3 : Fin 8)].relay = .awaiting 6 255 none ∧
    (gatheringAt 255 0 (some (1, []))).links[(3 : Fin 8)].frames = [] ++ ⟨0, .started⟩ :: [] ∧
    (gatheringAt 255 1 (some (1, []))).links[(3 : Fin 8)].frames = [] ++ ⟨1, .started⟩ :: [] ∧
    (0xA1#8 ≤ 0xA8#8 ∧ 0x9F#8 < 0xA0#8 ∧ 0xA8#8 < 0xA9#8 ∧ (1 : Nat) < 2) := by decide +kernel

theorem test_witness_LinkTimers :
    (let s := base.onLink 3 fun l => { l with state := .align, fresh := false, alignCount := 4095 };
      InPeriod s ∧ s.links[(3 : Fin 8)].state = .align ∧ s.links[(3 : Fin 8)].fresh = false ∧
        4096 ≤ s.links[(3 : Fin 8)].alignCount + 1) ∧
    (let s := base.onLink 3 fun l => { l with state := .fault, fresh := false, holdOff := 2047, recovery := .auto };
      s.links[(3 : Fin 8)].state = .fault ∧ s.links[(3 : Fin 8)].recovery = .auto ∧
        2048 ≤ s.links[(3 : Fin 8)].holdOff + 1) ∧
    (linked .active (.awaiting 2 255 none)).links[(3 : Fin 8)].relay = .awaiting 2 255 none ∧
    (InPeriod base ∧ base.links[(3 : Fin 8)].state ≠ .align ∧ base.links[(3 : Fin 8)].state ≠ .fault ∧
      base.links[(3 : Fin 8)].relay = .idle) := by decide +kernel

/-- WORDCLOCK on the list, with this window. -/
def listening (w : Option Window) : State :=
  base.onClock fun c => { c with candidates := [⟨.wordclock, .qualifying, w, none, none, none⟩] }

theorem test_witness_EdgesMeasureTheirReference :
    (InPeriod base ∧ findCandidate base.clock .wordclock = none) ∧
    findCandidate (listening none).clock .wordclock = some ⟨.wordclock, .qualifying, none, none, none, none⟩ ∧
    findCandidate (listening (some ⟨62, 0, 31744⟩)).clock .wordclock =
      some ⟨.wordclock, .qualifying, some ⟨62, 0, 31744⟩, none, none, none⟩ ∧
    (let s := (listening (some ⟨62, 0, 0⟩)).onClock fun c => { c with ticks := 1536 };
      findCandidate s.clock .wordclock = some ⟨.wordclock, .qualifying, some ⟨62, 0, 0⟩, none, none, none⟩ ∧
        0 + 2048 < s.clock.ticks + 513 ∧ ¬ 0 + 2048 < s.clock.ticks + 512 ∧ 512 ≤ s.clock.periodTicks) ∧
    (let s := (listening none).onClock fun c =>
        { c with lock := .pullIn, selected := some .wordclock, pullInCount := 255 };
      s.clock.lock = .pullIn ∧ s.clock.selected = some .wordclock ∧ (measureEdge .wordclock 0 s).clock.lock = .pullIn) ∧
    (let s := (listening (some ⟨63, 0, 32256⟩)).onClock fun c =>
        { c with lock := .pullIn, selected := some .wordclock, pullInCount := 255 };
      (measureEdge .wordclock 40000 s).clock.lock ≠ .pullIn) := by decide +kernel

theorem test_witness_WindowsMoveTheLock :
    (let s := listening (some ⟨63, 0, 32256⟩);
      findCandidate s.clock .wordclock = some ⟨.wordclock, .qualifying, some ⟨63, 0, 32256⟩, none, none, none⟩ ∧
        (63 : Nat) ≤ 63 ∧ s.clock.lock = .free ∧ (measureEdge .wordclock 32768 s).clock.lock = .pullIn ∧
        (measureEdge .wordclock 40000 s).clock.lock = .free) ∧
    (let s := (listening (some ⟨63, 0, 32256⟩)).onClock fun c => { c with lock := .locked, selected := some .wordclock };
      s.clock.lock = .locked ∧ s.clock.selected = some .wordclock ∧
        (measureEdge .wordclock 40000 s).clock.lock = .holdover ∧ (measureEdge .wordclock 32768 s).clock.lock = .locked) ∧
    (let s := (listening (some ⟨63, 0, 32256⟩)).onClock fun c =>
        { c with lock := .locked, selected := some (.link 3), revert := true, candidates := c.candidates ++ [ready] };
      s.clock.revert = true ∧ (measureEdge .wordclock 32768 s).clock.lock = .pullIn) ∧
    (let s := (listening (some ⟨63, 0, 32256⟩)).onClock fun c => { c with lock := .pullIn, selected := some .wordclock };
      s.clock.lock = .pullIn ∧ (measureEdge .wordclock 32768 s).clock.lock = .pullIn) ∧
    (clocked .holdover none (some .wordclock)).clock.lock = .holdover ∧
    (let c (l : List Candidate) : ClockUnit := { base.clock with candidates := l };
      let word : Candidate := { ready with ref := .wordclock };
      bestCandidate (c [word, Candidate.joined .internal, ready]) = some word ∧
        bestCandidate (c [Candidate.joined .internal, ready]) = none ∧
        bestCandidate (c [Candidate.joined .wordclock, ready]) = some ready) := by decide +kernel

theorem test_witness_ClockEvents :
    (let s := (listening (some ⟨0, 0, 0⟩)).onClock fun c => { c with ticks := 1536 };
      InPeriod s ∧
        findCandidate s.clock .wordclock = some ⟨.wordclock, .qualifying, some ⟨0, 0, 0⟩, none, none, none⟩ ∧
        0 + 2048 ≤ s.clock.ticks + s.clock.periodTicks ∧ s.clock.selected ≠ some .wordclock) ∧
    (clocked .locked (some .wordclock) none).clock.selected = some .wordclock ∧
    (let s := (clocked .pullIn (some .wordclock) none).onClock fun c => { c with pullInCount := 256 };
      s.clock.lock = .pullIn ∧ 256 ≤ s.clock.pullInCount ∧ latestEdge s.clock = none) ∧
    (let s := (listening (some ⟨7, 0, 3584⟩)).onClock fun c =>
        { c with lock := .pullIn, selected := some .wordclock, pullInCount := 256 };
      latestEdge s.clock = some 3584) ∧
    (let s := (clocked .holdover none (some .wordclock)).onClock fun c => { c with time := 108380160000 };
      s.clock.lock = .holdover ∧ s.clock.holdStart = some 0 ∧
        0 + s.clock.limit * timePerMs ≤ s.clock.time + s.clock.periodTime) ∧
    base.clock.lock ≠ .pullIn ∧ base.clock.lock ≠ .holdover := by decide +kernel

/-! ### Witnesses: surface messages, actions, timers and meter reports -/

theorem test_witness_SurfaceLinksComeAndGo :
    InPeriod (online []) ∧ (online []).surfaces[(2 : Fin 4)].state = .online ∧
      base.surfaces[(2 : Fin 4)].state ≠ .online ∧
      (let s := base.onClock fun c => { c with time := timePerMs };
        s.surfaces[(2 : Fin 4)].assemblerStart + timePerMs ≤ s.clock.time + s.clock.periodTime) ∧
      base.clock.time + base.clock.periodTime < base.surfaces[(2 : Fin 4)].assemblerStart + timePerMs := by decide +kernel

/-- Rule 511 in link 2's block, for POSITION of every element, with a deadband of 3 round 100. -/
def ruled (m : State) : State :=
  m.onRules fun u =>
    { u with
      blocks := modifyEntry u.blocks 2 fun _ => ⟨511, 1⟩
      rules := modifyEntry u.rules 511 fun _ => ⟨true, [.position], 0, 0, 3, some 100, [.forward 7]⟩ }

theorem test_witness_SurfaceMessagesReachTheRules :
    (InPeriod base ∧ base.surfaces[(2 : Fin 4)].state ≠ .online) ∧
    ((online []).surfaces[(2 : Fin 4)].state = .online ∧ (online []).device.mode = .setup ∧
      (operating (online [])).device.mode = .operate) ∧
    winner (operating (online [])).rules ⟨2, .position, 9, 0⟩ = none ∧
    (winner (ruled (operating (online []))).rules ⟨2, .position, 9, 102⟩ = some 511 ∧
      (ruled base).rules.rules[(511 : Fin 512)].lastPassed = some 100 ∧ ((102 : Int) - 100).natAbs < 3 ∧
      ¬ ((103 : Int) - 100).natAbs < 3) ∧
    (ruled base).rules.blocks[(2 : Fin 4)].start + (ruled base).rules.blocks[(2 : Fin 4)].count ≤ 512 := by
  decide +kernel

theorem test_witness_ActionsActOnTheirMessage :
    (base.boundary.taken = false ∧ base.mgmt.events.length < 128) ∧
    128 ≤ (base.onMgmt fun m => { m with events := List.replicate 128 ⟨0, .press, 0, 1, 0, 0⟩ }).mgmt.events.length ∧
    (base.rules.law[1023 / 8]? = some 1040384 ∧ base.rules.law[1023 / 8 + 1]? = some 1048576) ∧
    findRecord base.engine.table 5 300 = none ∧
    (findRecord (patched [settled 0] [] none base).engine.table 5 300 = some (settled 0) ∧ (settled 0).owner = none) ∧
    findRecord busy.engine.table 5 300 = some { settled 0 with owner := some 2, automation := some (7, 0) } ∧
    (base.surfaces[(2 : Fin 4)].state ≠ .online ∧ busy.surfaces[(2 : Fin 4)].state = .online ∧
      (∃ u ∈ busy.surfaces[(2 : Fin 4)].updates, u.kind = .lamp ∧ u.address = 9) ∧
      (∀ u ∈ busy.surfaces[(2 : Fin 4)].updates, ¬ (u.kind = .meter ∧ u.address = 9)) ∧
      busy.surfaces[(2 : Fin 4)].updates.length < 32) ∧
    (let s := online ((List.range 32).map fun n => ⟨.lamp, n, 0, 0⟩);
      (∀ u ∈ s.surfaces[(2 : Fin 4)].updates, ¬ (u.kind = .lamp ∧ u.address = 32)) ∧
        32 ≤ s.surfaces[(2 : Fin 4)].updates.length) := by
  decide +kernel

theorem test_witness_SurfaceTimers :
    (let s := (online [⟨.lamp, 1, 1, 8⟩, ⟨.setPosition, 1, 1, 0⟩]).onClock fun c => { c with time := 500 * timePerMs };
      InPeriod s ∧ s.surfaces[(2 : Fin 4)].state = .online ∧
        s.surfaces[(2 : Fin 4)].silenceStart + 500 * timePerMs ≤ s.clock.time + s.clock.periodTime ∧
        s.surfaces[(2 : Fin 4)].intervalStart + s.surfaces[(2 : Fin 4)].interval * timePerMs ≤
          s.clock.time + s.clock.periodTime ∧
        s.surfaces[(2 : Fin 4)].updates = [] ++ ⟨.lamp, 1, 1, 8⟩ :: [⟨.setPosition, 1, 1, 0⟩] ∧
        s.surfaces[(2 : Fin 4)].ackPending = false) ∧
    (online [⟨.lamp, 1, 1, 7⟩, ⟨.setPosition, 1, 1, 0⟩]).surfaces[(2 : Fin 4)].updates =
      [⟨.lamp, 1, 1, 7⟩] ++ ⟨.setPosition, 1, 1, 0⟩ :: [] ∧
    base.clock.time + base.clock.periodTime < base.surfaces[(2 : Fin 4)].silenceStart + 500 * timePerMs ∧
    (base.onSurface 2 fun f => { f with ackPending := true }).surfaces[(2 : Fin 4)].ackPending = true := by
  decide +kernel

theorem test_witness_MeterReportsAreHandedOn :
    (base.onBoundary fun b => { b with report := true }).boundary.report = true ∧ base.boundary.report = false ∧
    ((List.range 64).zip base.meter.points.toList).filter (fun p => p.2.active) = [] ∧
    ((List.range 64).zip (modifyEntry base.meter.points 63 fun p => { p with active := true }).toList).filter
      (fun p => p.2.active) ≠ [] ∧
    base.mgmt.meterSlot = none ∧
    (let slot (stale : Bool) : SlotReport := ⟨⟨0, 0, 0, 1, false, []⟩, 3, false, stale⟩;
      (base.onMgmt fun m => { m with meterSlot := some (slot true) }).mgmt.meterSlot = some (slot true) ∧
        (slot true).stale = true ∧
        (base.onMgmt fun m => { m with meterSlot := some (slot false) }).mgmt.meterSlot = some (slot false) ∧
        (slot false).stale = false) := by decide +kernel

/-! ### Single commands, against the manual's worked sequences -/

/-- A sample period of reset (R7, R86): the counter is 1, 512 ticks have passed, and the next one is the second of 16. -/
theorem test_samplePeriod :
    let t := after .samplePeriod base
    (t.gen.sampleCounter, t.gen.position, t.clock.ticks, t.gen.blockNumber) = (1, 1, 512, 0) := by decide +kernel

/-- "An error burst" (04), frame period 1: a bad frame takes the counter from 90 to 98 and sets DEGRADED, with its alarm. -/
theorem test_errorBurst :
    let s := base.onLink 3 fun l => { l with state := .active, errors := 90, frames := [⟨1, .started⟩] }
    let t := after (.converterFrame 3 []) s
    let l := t.links[(3 : Fin 8)]
    (l.errors, l.degraded, l.run, l.missing, l.counters.bad) = (98, true, 1, 0, 1) ∧
      t.mgmt.alarms = [⟨.linkState 3 .active true false 98 none 0, 0⟩] := by decide +kernel

/-- "A rack unplugged" (04): the 16th missing frame in a row is a fault with reason MISSING. -/
theorem test_sixteenthMissing :
    let s := base.onLink 5 fun l => { l with state := .active, errors := 120, missing := 15, frames := [⟨1, .unstarted⟩] }
    let l := (after (.missingFrame 5) s).links[(5 : Fin 8)]
    (l.state, l.reason, l.errors, l.counters.faults) = (.fault, some .missing, 255, 1) := by decide +kernel

/-- "Arrival against play time across the wrap" (06), steps 1 and 3, by a part with P = 1 and B = 8. -/
theorem test_arrival :
    let s := (base.onGen fun g => { g with playback := 1, blockSize := 8 }).onUplink fun u =>
      { u with nextPlay := 65534, ring := [⟨65534, []⟩, ⟨65535, []⟩] }
    let t := after (.downBlock ⟨0, 8, 1, 48, List.replicate 8 0xFFFFFF00#32⟩) s
    t.uplink.ring.map (·.number) = [65534, 65535, 0] ∧
      t.uplink.ring.getLast?.map (·.samples) = some (List.replicate 8 (-1)) ∧
      (after (.downBlock ⟨2, 8, 1, 48, List.replicate 8 0⟩) t).uplink.counters.early = 1 := by decide +kernel

/-- XP_ADD of a pair that has a record replies EXISTS, and of a new one joins the list (R26). -/
theorem test_xpAdd :
    let s := patched [settled 0] [] none base
    (after (xpAddOf entry) (ask (xpAddOf entry) s)).mgmt.replies = [⟨1, 0x10, ⟨.exists_, false, .plain⟩⟩] ∧
      (after (xpAddOf entry) (ask (xpAddOf entry) base)).engine.edits = [.add entry] := by decide +kernel

/-- A commit gives the new record current 0 and the full length of its ramp (R33). -/
theorem test_commit :
    (after .commitApply sealed).engine.table =
        [{ settled 5 with source := 6, ramp := 0, current := 0, remaining := 1 }] ∧
      (after .commitApply sealed).mgmt.replies = [⟨9, 0x17, Answer.ok⟩] := by decide +kernel

/-- A TOUCH holds its record, a gain of the computer then becomes the automation gain, and the release makes it the set gain
(R147, R19, R152). -/
theorem test_touch :
    let held := touchPair 2 5 300 true (patched [settled 0] [] none base)
    let written := updateRecord 5 300 (writeGain 5000 3) held.engine.table
    written.map (fun r => (r.owner, r.setGain, r.automation)) = [(some 2, 0, some (5000, 3))] ∧
      (written.map releaseHold).map (fun r => (r.owner, r.setGain, r.remaining)) = [(none, 5000, 64)] := by
  decide +kernel

/-- "The eighth consecutive good judgement" (R66) is the first whose values can be presented: the seventh's, of the frame
period before, is dropped. -/
theorem test_eighthGood :
    let s := (framed .align [⟨1, .judged ⟨false, .good, Vector.replicate 32 9⟩⟩, ⟨0, .started⟩]).onLink 3 fun l =>
      { l with goodRun := 7 }
    let l := (after (.converterFrame 3 goodBytes) (s.onGen fun g => { g with rate := ⟨.k48, .x4⟩ })).links[(3 : Fin 8)]
    (l.state, l.frames.map (·.age)) = (.paused, [0]) := by decide +kernel

/-- An edge after four nominal periods without one finds edge loss (R92) and starts a window; one at the tick itself does
not (log entry 36). -/
theorem test_lateEdge :
    let s := (listening (some ⟨5, 0, 0⟩)).onClock fun c => { c with ticks := 1536 }
    let late := (after (.wordclockEdge 513 false) s).clock
    let just := (after (.wordclockEdge 512 false) s).clock
    (late.counters.edgeLosses, late.candidates.map (·.window), late.candidates.map (·.qualification)) =
        (1, [some ⟨0, 2049, 2049⟩], [.unqualified]) ∧
      (just.counters.edgeLosses, just.candidates.map (·.window)) = (0, [some ⟨6, 0, 2048⟩]) := by decide +kernel

/-- In LOCKED a sample period is one period of the reference, also where an edge was missed (R86, R92). -/
theorem test_lockedLength :
    let c (latest : Nat) : ClockUnit :=
      { base.clock with
        lock := .locked, selected := some .wordclock, lockOffset := 600, ticks := 9488
        candidates := [⟨.wordclock, .qualified, some ⟨3, 0, latest⟩, some 512, none, none⟩] }
    [(c 9912).nextPeriod Rate.base 0, (c 9400).nextPeriod Rate.base 0].map (fun u => (u.ticks, u.periodTicks)) =
      [(10000, 512), (10000, 512)] := by decide +kernel

/-- A message of which a byte is missing 1 ms after its start byte is discarded and counted (R122), and no sooner. -/
theorem test_assemblyTime :
    let s := base.onSurface 2 fun f => { f with assembler := [0x88#8] }
    let at_ (time : Nat) := (after .samplePeriod (s.onClock fun c => { c with time := time })).surfaces[(2 : Fin 4)]
    let due := at_ (timePerMs - 75264)
    let early := at_ (timePerMs - 75265)
    (due.assembler, due.counters.malformed, early.assembler, early.counters.malformed) = ([], 1, [0x88#8], 0) := by
  decide +kernel

/-- A REQUEST frame of one byte is valid (R110): its byte is the tag. -/
theorem test_shortRequest :
    (match decodeFrame (encodeFrame 0x02#8 [0x42#8]) with
    | .request r => r.tag
    | _ => 0#8) = 0x42#8 := by decide +kernel

/-- A request at an open boundary falls in the period that begins there (log entry 7): the commit has been applied, the record
it added has taken its first step (R23, R33, R44), and the edit is no longer in the list. -/
theorem test_openBoundary :
    let t := after (.xpRead 1 (some ⟨6, 300⟩)) (sealed.onBoundary fun b => { b with taken := true })
    (t.gen.sampleCounter, t.boundary.taken, t.engine.edits) = (1, false, []) ∧
      t.mgmt.replies.map (·.tag) = [9, 1] ∧
      (t.mgmt.replies.getLast?.map fun r => match r.answer.data with
        | .xpRead v => (v.current, v.remaining)
        | _ => (none, none)) = some (some 5, some 0) := by decide +kernel

/-- A PATCH_COMMIT that waits in the last period of a block is taken before the period ends, so that its list is due at the
boundary (R30, R170). -/
theorem test_boundaryTakesRequests :
    let s := ask (.patchCommit 1 (some ())) (patched [] [.add entry] none (last base))
    let t := after .blockBoundary s
    (t.boundary.commit, t.engine.commit, t.mgmt.requests) = (true, some 1, []) := by decide +kernel

/-- Peaks gathered before a DEVICE_RESET's boundary are not reported (R163), and at any other a report falls due. -/
theorem test_resetReports :
    let s := (last base).onMeter fun m => { m with count := 7 }
    let resetting := s.onDevice fun d => { d with resetState := .ready }
    ((after .blockBoundary s).boundary.report, (after .blockBoundary resetting).boundary.report) = (true, false) := by
  decide +kernel

/-- The counters of a CLIP group follow their count, those of another do not (R179, R193). -/
theorem test_clipCounters :
    replyFields (.counters false [1, 258]) = [2, 0, 1, 1, 2] ∧ replyFields (.counters true [1]) = [0, 0, 0, 1] := by
  decide

/-- A period of PULL_IN in which the 256th edge can fall is one period of the reference (R86). -/
theorem test_pullInLast :
    let c (count : Nat) : ClockUnit :=
      { base.clock with
        lock := .pullIn, selected := some .wordclock, entryLength := 513, pullInCount := count
        candidates := [⟨.wordclock, .qualified, some ⟨3, 0, 0⟩, some 512, none, none⟩] }
    (c 253).lastOfPullIn = true ∧ (c 252).lastOfPullIn = false ∧ ((c 254).nextPeriod Rate.base 0).periodTicks = 512 := by
  decide +kernel

/-- CLOCK_STATUS names a lost candidate that has left the list with its last deviation (R98). -/
theorem test_lostDeviation :
    let s := (clocked .holdover none (some .wordclock)).onClock fun c => { c with heldDeviation := some (-12) }
    ((after (.clockStatus 1 (some ())) s).mgmt.replies.map fun r => match r.answer.data with
      | .clockStatus v => (v.lost, v.lostDeviation)
      | _ => (none, none)) = [(some .wordclock, some (-12))] := by decide +kernel

/-- The frame of the 255th period counted, judged in the 256th, completes a reply; that of the 256th, judged within it, does
not, and the timeout then falls (R81). -/
theorem test_lateReply :
    let replies (s : State) := s.mgmt.replies.map fun r => r.answer.status
    replies (after (.converterFrame 3 goodBytes) (gatheringAt 255 1 (some (1, [])))) = [.ok] ∧
    replies (after (.converterFrame 3 goodBytes) (gatheringAt 254 0 (some (1, [])))) = [.ok] ∧
    replies (after (.converterFrame 3 goodBytes) (gatheringAt 255 0 (some (1, [])))) = [] ∧
    replies (after (.commandTimeout 3) (after (.converterFrame 3 goodBytes) (gatheringAt 255 0 (some (1, []))))) =
      [.timeout] := by decide +kernel

/-- A posting under a held key replaces its entry in place with the superseded count one higher, held at 255 (R174). -/
theorem test_postAlarm :
    let q := [⟨.store .empty none 0 0, 255⟩, ⟨.clockState .free none Rate.base none 0, 3⟩]
    queueAlarm (.clockState .locked none Rate.base none 7) q =
      [⟨.store .empty none 0 0, 255⟩, ⟨.clockState .locked none Rate.base none 7, 4⟩] ∧
    queueAlarm (.store .incomplete none 1 7) q =
      [⟨.store .incomplete none 1 7, 255⟩, ⟨.clockState .free none Rate.base none 0, 3⟩] := by decide

/-- A step takes the front command and leaves the rest of the queue. -/
theorem test_step :
    (match step { base with pending := [.badFrame, .powerLoss] } with
    | .next t => (t.pending, t.uplink.counters.bad)
    | .fault _ => ([], 0)
    | .refused _ => ([], 0)) = ([.powerLoss], 1) := by decide +kernel

end Sys2Proof.Tests
end

section
/-! The patch table's requests (02_the_patch_table.md, R18 to R32): the taking of a request by what its owner
answers, the readers of the request fields, the route of a pair, the answer of each owner case by case, the walk of R31,
and from these the statements O30, O31 and O33. -/

namespace Sys2Proof.Machine

open Sys2Proof.Safety

/-! ### The taking of a request by what its owner answers

An owner acts on the state with the request in flight, `taken rest s`. Its reply is placed in the transmitter, which no
owner of the patch table touches, so the next state is `replied` of the owner's own change. -/

theorem act_owner_some {c : Instr} {rest : List RequestFrame} {s t : State} {tag kind : Byte} {owner : Owner}
    {a : Answer} (h : Takes c rest s) (answers : owner (taken rest s) = (taken rest t, some a)) :
    act (takeRequest c tag kind owner) s = .next (replied rest tag kind a t) := by
  rw [act_inPeriod _ h.1, takeRequest_of_takes h, answer_some answers]; rfl

theorem act_owned {c : Instr} {rest : List RequestFrame} {s t : State} {tag kind : Byte} {f : State → State × Answer}
    {a : Answer} (h : Takes c rest s) (answers : f (taken rest s) = (taken rest t, a)) :
    act (takeRequest c tag kind (owned f)) s = .next (replied rest tag kind a t) :=
  act_owner_some h (by rw [owned, answers])

theorem act_owner_none {c : Instr} {rest : List RequestFrame} {s t : State} {tag kind : Byte} {owner : Owner}
    (h : Takes c rest s) (answers : owner (taken rest s) = (t, none)) :
    act (takeRequest c tag kind owner) s = .next t := by
  rw [act_inPeriod _ h.1, takeRequest_of_takes h, answer_none answers]

/-! ### The readers of the request fields (R18) -/

theorem coeffOf_small {x : Int} (h : x < -8388608) : coeffOf x = none :=
  coeffOf_outside fun k => absurd k.1 (not_le.mpr h)

theorem coeffOf_large {x : Int} (h : 8388607 < x) : coeffOf x = none :=
  coeffOf_outside fun k => absurd k.2 (not_le.mpr h)

theorem readEntry_fields {e : PatchEntry} (h : InRange e.setGain) :
    readEntry ⟨e.source.val, e.destination.val, e.setGain, e.muted.toNat, e.ramp.val⟩ = some e := by
  simp [readEntry, coeffOf_inRange h]

theorem readEntry_outside {b : XpAddBody}
    (h : 528 ≤ b.source ∨ 528 ≤ b.destination ∨ b.gain < -8388608 ∨ 8388607 < b.gain ∨ 2 ≤ b.muted ∨ 8 ≤ b.ramp) :
    readEntry b = none := by
  rcases h with h | h | h | h | h | h
  · simp [readEntry, slotOf_large h]
  · simp [readEntry, slotOf_large h]
  · simp [readEntry, coeffOf_small h]
  · simp [readEntry, coeffOf_large h]
  · simp [readEntry, yesNoOf_large h]
  · simp [readEntry, rampOf_large h]

theorem readPairBody_fields (src dst : Slot) : readPairBody ⟨src.val, dst.val⟩ = some (src, dst) := by
  simp [readPairBody]

theorem readPairBody_outside {b : PairBody} (h : 528 ≤ b.source ∨ 528 ≤ b.destination) : readPairBody b = none := by
  rcases h with h | h
  · simp [readPairBody, slotOf_large h]
  · simp [readPairBody, slotOf_large h]

theorem readXpGainFields_fields (src dst : Slot) {gain : Int} (code : RampCode) (h : InRange gain) :
    readXpGainFields ⟨src.val, dst.val, gain, code.val⟩ = some (src, dst, gain, code) := by
  simp [readXpGainFields, coeffOf_inRange h]

theorem readXpGainFields_outside {b : XpGainBody}
    (h : 528 ≤ b.source ∨ 528 ≤ b.destination ∨ b.gain < -8388608 ∨ 8388607 < b.gain ∨ 8 ≤ b.ramp) :
    readXpGainFields b = none := by
  rcases h with h | h | h | h | h
  · simp [readXpGainFields, slotOf_large h]
  · simp [readXpGainFields, slotOf_large h]
  · simp [readXpGainFields, coeffOf_small h]
  · simp [readXpGainFields, coeffOf_large h]
  · simp [readXpGainFields, rampOf_large h]

theorem readXpMuteFields_fields (src dst : Slot) (on : Bool) :
    readXpMuteFields ⟨src.val, dst.val, on.toNat⟩ = some (src, dst, on) := by
  simp [readXpMuteFields]

theorem readXpMuteFields_outside {b : XpMuteBody} (h : 528 ≤ b.source ∨ 528 ≤ b.destination ∨ 2 ≤ b.on) :
    readXpMuteFields b = none := by
  rcases h with h | h | h
  · simp [readXpMuteFields, slotOf_large h]
  · simp [readXpMuteFields, slotOf_large h]
  · simp [readXpMuteFields, yesNoOf_large h]

theorem readXpRampFields_fields (src dst : Slot) (code : RampCode) :
    readXpRampFields ⟨src.val, dst.val, code.val⟩ = some (src, dst, code) := by
  simp [readXpRampFields]

theorem readXpRampFields_outside {b : XpRampBody} (h : 528 ≤ b.source ∨ 528 ≤ b.destination ∨ 8 ≤ b.ramp) :
    readXpRampFields b = none := by
  rcases h with h | h | h
  · simp [readXpRampFields, slotOf_large h]
  · simp [readXpRampFields, slotOf_large h]
  · simp [readXpRampFields, rampOf_large h]

/-! ### The route of a pair (R18) and the seal (R30) -/

theorem route_record {g : Engine} {src dst : Slot} {r : Crosspoint} (h : findRecord g.table src dst = some r) :
    route g src dst = .record r (findEdit g.edits src dst).isSome := by
  simp [route, h]

theorem route_edited {g : Engine} {src dst : Slot} {r : Crosspoint} (h : findRecord g.table src dst = some r)
    (k : (findEdit g.edits src dst).isSome) : route g src dst = .record r true := by
  rw [route_record h, k]

theorem route_unedited {g : Engine} {src dst : Slot} (h : (findRecord g.table src dst).isSome)
    (k : findEdit g.edits src dst = none) : ∃ r, route g src dst = .record r false := by
  obtain ⟨r, hr⟩ := Option.isSome_iff_exists.mp h
  exact ⟨r, by rw [route_record hr, k]; rfl⟩

theorem route_pendingAdd {g : Engine} {src dst : Slot} {a : PatchEntry} (h : findRecord g.table src dst = none)
    (k : findEdit g.edits src dst = some (.add a)) : route g src dst = .pendingAdd a := by
  simp [route, h, k]

theorem route_nothing {g : Engine} {src dst : Slot} (h : findRecord g.table src dst = none)
    (k : findEdit g.edits src dst = none) : route g src dst = .nothing := by
  simp [route, h, k]

theorem listSealed_of_ne {g : Engine} (h : g.commit ≠ none) : g.listSealed = true :=
  Option.isSome_iff_ne_none.mpr h

theorem listSealed_of_eq {g : Engine} (h : g.commit = none) : g.listSealed = false := by
  simp [Engine.listSealed, h]

/-! ### The writes on a record (R19 to R22, R27) -/

/-- A gain restarts the ramp of a record that is not held, and goes to the automation gain of one that is. -/
theorem writeGain_eq (gain : Int) (code : RampCode) :
    writeGain gain code = fun r => match r.owner with
      | none => restartedFrom r code { r with setGain := gain }
      | some _ => { r with automation := some (gain, code) } := by
  funext r
  unfold writeGain
  cases r.owner with
  | none => exact retarget_eq ..
  | some owner => rfl

theorem writeMute_eq (on : Bool) : writeMute on = fun r => restartedFrom r r.ramp { r with muted := on } :=
  funext fun _ => retarget_eq ..

/-- A revival restarts the ramp under the ADD's code; the gain of a held record goes to its automation gain. -/
theorem reviveRecord_eq (e : PatchEntry) :
    reviveRecord e = fun r => match r.owner with
      | none => restartedFrom r e.ramp { r with ramp := e.ramp, muted := e.muted, setGain := e.setGain }
      | some _ =>
        restartedFrom r e.ramp { r with ramp := e.ramp, muted := e.muted, automation := some (e.setGain, e.ramp) } := by
  funext r
  unfold reviveRecord
  cases r.owner with
  | none => exact retarget_eq ..
  | some owner => exact retarget_eq ..

/-- The write on a pending ADD rewrites the ADD of the pair in its place and no other edit. -/
theorem Engine.onAdd_eq (src dst : Slot) (f : PatchEntry → PatchEntry) (g : Engine) :
    g.onAdd src dst f = { g with edits := g.edits.map fun d => match d with
      | .add a => if a.source = src ∧ a.destination = dst then .add (f a) else .add a
      | .remove x y => .remove x y } := by
  refine congrArg (fun edits => { g with edits := edits }) (List.map_congr_left fun d _ => ?_)
  cases d with
  | add a => simp [Edit.source, Edit.destination]
  | remove x y => rfl

/-! ### XP_ADD, XP_REMOVE and PATCH_DISCARD, case by case (R26 to R30) -/

theorem appendEdit_room (d : Edit) {s : State} (h : s.engine.edits.length < 64) :
    appendEdit d s = (s.onEngine fun g => { g with edits := g.edits ++ [d] }, Answer.ok) := if_pos h

theorem appendEdit_full (d : Edit) {s : State} (h : 64 ≤ s.engine.edits.length) :
    appendEdit d s = (s, Answer.of .full) := if_neg (by omega)

section XpAdd

variable {b : XpAddBody} {e : PatchEntry} {s : State}

theorem ownXpAdd_range (read : readEntry b = none) : ownXpAdd (some b) s = (s, Answer.range) := by
  simp [ownXpAdd, read]

theorem ownXpAdd_busy (read : readEntry b = some e) (listSealed : s.engine.commit ≠ none) :
    ownXpAdd (some b) s = (s, Answer.of .busy) := by
  simp [ownXpAdd, read, listSealed_of_ne listSealed]

theorem ownXpAdd_append (read : readEntry b = some e) (unsealed : s.engine.commit = none)
    (reach : route s.engine e.source e.destination = .nothing) (room : s.engine.edits.length < 64) :
    ownXpAdd (some b) s = (s.onEngine fun g => { g with edits := g.edits ++ [.add e] }, Answer.ok) := by
  simp [ownXpAdd, read, listSealed_of_eq unsealed, reach, appendEdit_room _ room]

theorem ownXpAdd_full (read : readEntry b = some e) (unsealed : s.engine.commit = none)
    (reach : route s.engine e.source e.destination = .nothing) (full : 64 ≤ s.engine.edits.length) :
    ownXpAdd (some b) s = (s, Answer.of .full) := by
  simp [ownXpAdd, read, listSealed_of_eq unsealed, reach, appendEdit_full _ full]

theorem ownXpAdd_exists_record {r : Crosspoint} (read : readEntry b = some e) (unsealed : s.engine.commit = none)
    (reach : route s.engine e.source e.destination = .record r false) :
    ownXpAdd (some b) s = (s, Answer.of .exists_) := by
  simp [ownXpAdd, read, listSealed_of_eq unsealed, reach]

theorem ownXpAdd_exists_pending {a : PatchEntry} (read : readEntry b = some e) (unsealed : s.engine.commit = none)
    (reach : route s.engine e.source e.destination = .pendingAdd a) :
    ownXpAdd (some b) s = (s, Answer.of .exists_) := by
  simp [ownXpAdd, read, listSealed_of_eq unsealed, reach]

theorem ownXpAdd_revive {r : Crosspoint} (read : readEntry b = some e) (unsealed : s.engine.commit = none)
    (reach : route s.engine e.source e.destination = .record r true) :
    ownXpAdd (some b) s =
      (s.onEngine fun g => (g.dropEdit e.source e.destination).onRecord e.source e.destination (reviveRecord e),
        Answer.okHeld r.owner.isSome) := by
  simp [ownXpAdd, read, listSealed_of_eq unsealed, reach]

end XpAdd

section XpRemove

variable {b : PairBody} {src dst : Slot} {s : State}

theorem ownXpRemove_range (read : readPairBody b = none) : ownXpRemove (some b) s = (s, Answer.range) := by
  simp [ownXpRemove, read]

theorem ownXpRemove_busy (read : readPairBody b = some (src, dst)) (listSealed : s.engine.commit ≠ none) :
    ownXpRemove (some b) s = (s, Answer.of .busy) := by
  simp [ownXpRemove, read, listSealed_of_ne listSealed]

theorem ownXpRemove_delete {a : PatchEntry} (read : readPairBody b = some (src, dst))
    (unsealed : s.engine.commit = none) (reach : route s.engine src dst = .pendingAdd a) :
    ownXpRemove (some b) s = (s.onEngine fun g => g.dropEdit src dst, Answer.ok) := by
  simp [ownXpRemove, read, listSealed_of_eq unsealed, reach]

theorem ownXpRemove_append {r : Crosspoint} (read : readPairBody b = some (src, dst))
    (unsealed : s.engine.commit = none) (reach : route s.engine src dst = .record r false)
    (room : s.engine.edits.length < 64) :
    ownXpRemove (some b) s = (s.onEngine fun g => { g with edits := g.edits ++ [.remove src dst] }, Answer.ok) := by
  simp [ownXpRemove, read, listSealed_of_eq unsealed, reach, appendEdit_room _ room]

theorem ownXpRemove_full {r : Crosspoint} (read : readPairBody b = some (src, dst))
    (unsealed : s.engine.commit = none) (reach : route s.engine src dst = .record r false)
    (full : 64 ≤ s.engine.edits.length) : ownXpRemove (some b) s = (s, Answer.of .full) := by
  simp [ownXpRemove, read, listSealed_of_eq unsealed, reach, appendEdit_full _ full]

theorem ownXpRemove_removed {r : Crosspoint} (read : readPairBody b = some (src, dst))
    (unsealed : s.engine.commit = none) (reach : route s.engine src dst = .record r true) :
    ownXpRemove (some b) s = (s, Answer.of .notFound) := by
  simp [ownXpRemove, read, listSealed_of_eq unsealed, reach]

theorem ownXpRemove_nothing (read : readPairBody b = some (src, dst)) (unsealed : s.engine.commit = none)
    (reach : route s.engine src dst = .nothing) : ownXpRemove (some b) s = (s, Answer.of .notFound) := by
  simp [ownXpRemove, read, listSealed_of_eq unsealed, reach]

end XpRemove

theorem ownPatchDiscard_busy {s : State} (listSealed : s.engine.commit ≠ none) :
    ownPatchDiscard (some ()) s = (s, Answer.of .busy) := by
  simp [ownPatchDiscard, listSealed_of_ne listSealed]

theorem ownPatchDiscard_empties {s : State} (unsealed : s.engine.commit = none) :
    ownPatchDiscard (some ()) s = (s.onEngine fun g => { g with edits := [] }, Answer.ok) := by
  simp [ownPatchDiscard, listSealed_of_eq unsealed]

/-! ### The immediate requests (R18 to R22, R32) -/

section WritePair

variable {src dst : Slot} {f : Crosspoint → Crosspoint} {g : PatchEntry → PatchEntry} {held : Bool} {s : State}

theorem writePair_record {r : Crosspoint} (h : findRecord s.engine.table src dst = some r) :
    writePair src dst f g held s =
      (s.onEngine (Engine.onRecord src dst f), Answer.okHeld (held && r.owner.isSome)) := by
  simp [writePair, route_record h]

theorem writePair_pendingAdd {e : PatchEntry} (h : findRecord s.engine.table src dst = none)
    (k : findEdit s.engine.edits src dst = some (.add e)) (unsealed : s.engine.commit = none) :
    writePair src dst f g held s = (s.onEngine (Engine.onAdd src dst g), Answer.ok) := by
  simp [writePair, route_pendingAdd h k, listSealed_of_eq unsealed]

theorem writePair_busy {e : PatchEntry} (h : findRecord s.engine.table src dst = none)
    (k : findEdit s.engine.edits src dst = some (.add e)) (listSealed : s.engine.commit ≠ none) :
    writePair src dst f g held s = (s, Answer.of .busy) := by
  simp [writePair, route_pendingAdd h k, listSealed_of_ne listSealed]

theorem writePair_nothing (h : findRecord s.engine.table src dst = none)
    (k : findEdit s.engine.edits src dst = none) : writePair src dst f g held s = (s, Answer.of .notFound) := by
  simp [writePair, route_nothing h k]

end WritePair

/-- A command whose owner writes through `writePair` is an immediate request for its pair. -/
theorem writesPair_of_owner {c : Instr} {tag kind : Byte} {src dst : Slot} {write onRecord : Crosspoint → Crosspoint}
    {onAdd : PatchEntry → PatchEntry} {held : Bool} {own : State → State × Answer}
    (owns : own = writePair src dst write onAdd held) (writes : write = onRecord)
    (runs : ∀ s, exec c s = act (takeRequest c tag kind (owned own)) s) :
    WritesPair c tag kind src dst onRecord onAdd held := by
  subst owns writes
  intro rest s h
  simp only [runs]
  refine ⟨fun r hr => act_owned h (writePair_record hr), fun e hr he => ⟨fun unsealed => ?_, fun listSealed => ?_⟩,
    fun hr he => act_owned h (writePair_nothing hr he)⟩
  · refine act_owned h ((writePair_pendingAdd (s := taken rest s) hr he unsealed).trans ?_)
    exact congrArg (fun g => (taken rest { s with engine := g }, Answer.ok)) (Engine.onAdd_eq ..)
  · exact act_owned h (writePair_busy hr he listSealed)

theorem ownXpGain_inRange (src dst : Slot) {gain : Int} (code : RampCode) (h : InRange gain) :
    ownXpGain (some ⟨src.val, dst.val, gain, code.val⟩) =
      writePair src dst (writeGain gain code) (fun a => { a with setGain := gain }) true := by
  funext s; simp [ownXpGain, readXpGainFields_fields src dst code h]

theorem ownXpMute_inRange (src dst : Slot) (on : Bool) :
    ownXpMute (some ⟨src.val, dst.val, on.toNat⟩) =
      writePair src dst (writeMute on) (fun a => { a with muted := on }) false := by
  funext s; simp [ownXpMute, readXpMuteFields_fields]

theorem ownXpRamp_inRange (src dst : Slot) (code : RampCode) :
    ownXpRamp (some ⟨src.val, dst.val, code.val⟩) =
      writePair src dst (writeRamp code) (fun a => { a with ramp := code }) false := by
  funext s; simp [ownXpRamp, readXpRampFields_fields]

theorem ownXpGain_range {b : XpGainBody} {s : State} (read : readXpGainFields b = none) :
    ownXpGain (some b) s = (s, Answer.range) := by
  simp [ownXpGain, read]

theorem ownXpMute_range {b : XpMuteBody} {s : State} (read : readXpMuteFields b = none) :
    ownXpMute (some b) s = (s, Answer.range) := by
  simp [ownXpMute, read]

theorem ownXpRamp_range {b : XpRampBody} {s : State} (read : readXpRampFields b = none) :
    ownXpRamp (some b) s = (s, Answer.range) := by
  simp [ownXpRamp, read]

/-! ### The walk of PATCH_COMMIT (R31) -/

/-- The walk's count goes one edit at a time. -/
theorem afterEdits_cons (held : List Slot) (d : Edit) (edits : List Edit) :
    afterEdits held (d :: edits) = afterEdits (afterEdits held [d]) edits := rfl

theorem validateEdits_cons (pos : Nat) (held : List Slot) (d : Edit) (edits : List Edit) :
    validateEdits pos held (d :: edits) =
      if 1024 < (afterEdits held [d]).length then some (pos, d, .total)
      else if 64 < (afterEdits held [d]).count d.destination then some (pos, d, .destination)
      else validateEdits (pos + 1) (afterEdits held [d]) edits := by
  cases d <;> rfl

theorem passesAt_zero {held : List Slot} {d : Edit} {edits : List Edit} :
    PassesAt held (d :: edits) 0 ↔
      (afterEdits held [d]).length ≤ 1024 ∧ (afterEdits held [d]).count d.destination ≤ 64 := by
  simp only [PassesAt, List.getElem?_cons_zero, Option.some.injEq, forall_eq', List.take_succ_cons, List.take_zero]

theorem passesAt_succ {held : List Slot} {d : Edit} {edits : List Edit} {n : Nat} :
    PassesAt held (d :: edits) (n + 1) ↔ PassesAt (afterEdits held [d]) edits n := by
  simp only [PassesAt, List.getElem?_cons_succ, List.take_succ_cons,
    afterEdits_cons held d (edits.take (n + 1))]

theorem validateEdits_passes {held : List Slot} {d : Edit} {edits : List Edit} (pos : Nat)
    (h : PassesAt held (d :: edits) 0) :
    validateEdits pos held (d :: edits) = validateEdits (pos + 1) (afterEdits held [d]) edits := by
  obtain ⟨total, count⟩ := passesAt_zero.mp h
  rw [validateEdits_cons, if_neg (Nat.not_lt.mpr total), if_neg (Nat.not_lt.mpr count)]

/-- An edit that does not pass ends the walk at its position, with TOTAL before DESTINATION. -/
theorem validateEdits_fails {held : List Slot} {d : Edit} {edits : List Edit} (pos : Nat)
    (h : ¬ PassesAt held (d :: edits) 0) :
    validateEdits pos held (d :: edits) =
      some (pos, d, if 1024 < (afterEdits held [d]).length then .total else .destination) := by
  rw [passesAt_zero, not_and_or, not_le, not_le] at h
  rw [validateEdits_cons]
  by_cases total : 1024 < (afterEdits held [d]).length
  · rw [if_pos total, if_pos total]
  · rw [if_neg total, if_neg total, if_pos (h.resolve_left total)]

theorem validateEdits_eq_none {held : List Slot} {edits : List Edit} (pos : Nat)
    (h : ∀ n, PassesAt held edits n) : validateEdits pos held edits = none := by
  induction edits generalizing pos held with
  | nil => rfl
  | cons d edits ih =>
    rw [validateEdits_passes pos (h 0)]
    exact ih _ fun n => passesAt_succ.mp (h (n + 1))

/-- The walk stops at the first position that does not pass. -/
theorem validateEdits_eq_some {held : List Slot} {edits : List Edit} {n : Nat} {d : Edit} (pos : Nat)
    (at_n : edits[n]? = some d) (before : ∀ k < n, PassesAt held edits k) (fails : ¬ PassesAt held edits n) :
    validateEdits pos held edits =
      some (pos + n, d, if 1024 < (afterEdits held (edits.take (n + 1))).length then .total else .destination) := by
  induction n generalizing pos held edits with
  | zero =>
    cases edits with
    | nil => simp at at_n
    | cons x edits =>
      obtain rfl : x = d := by simpa using at_n
      exact validateEdits_fails pos fails
  | succ n ih =>
    cases edits with
    | nil => simp at at_n
    | cons x edits =>
      have rest := ih (held := afterEdits held [x]) (pos + 1) (by simpa using at_n)
        (fun k hk => passesAt_succ.mp (before (k + 1) (Nat.succ_lt_succ hk))) (passesAt_succ.not.mp fails)
      rw [validateEdits_passes pos (before 0 n.succ_pos), rest, List.take_succ_cons,
        afterEdits_cons held x (edits.take (n + 1)), Nat.add_right_comm, Nat.add_assoc]

/-! ### PATCH_COMMIT, case by case (R30, R31) -/

section PatchCommit

variable {tag : Byte} {s : State}

theorem ownPatchCommit_busy (listSealed : s.engine.commit ≠ none) :
    ownPatchCommit tag (some ()) s = (s, some (Answer.of .busy)) := by
  simp [ownPatchCommit, listSealed_of_ne listSealed]

theorem ownPatchCommit_empty (unsealed : s.engine.commit = none) (empty : s.engine.edits = []) :
    ownPatchCommit tag (some ()) s = (s, some Answer.ok) := by
  simp [ownPatchCommit, listSealed_of_eq unsealed, empty]

theorem ownPatchCommit_seals (unsealed : s.engine.commit = none) (nonempty : s.engine.edits ≠ [])
    (walk : validateEdits 0 (s.engine.table.map (·.destination)) s.engine.edits = none) :
    ownPatchCommit tag (some ()) s = (s.onEngine fun g => { g with commit := some tag }, none) := by
  simp [ownPatchCommit, listSealed_of_eq unsealed, nonempty, walk]

theorem ownPatchCommit_conflict {pos : Nat} {d : Edit} {limit : Limit} (unsealed : s.engine.commit = none)
    (nonempty : s.engine.edits ≠ [])
    (walk : validateEdits 0 (s.engine.table.map (·.destination)) s.engine.edits = some (pos, d, limit)) :
    ownPatchCommit tag (some ()) s =
      (s, some ⟨.conflict, false, .conflict pos d.source d.destination limit⟩) := by
  simp [ownPatchCommit, listSealed_of_eq unsealed, nonempty, walk]

end PatchCommit

end Sys2Proof.Machine

namespace Sys2Proof.PatchTable

open Sys2Proof.Machine Sys2Proof.Safety

/-! ### The statements of the patch table's requests -/

/-- Settles O30, XP_ADD, XP_REMOVE and PATCH_DISCARD each by the route of its pair. -/
theorem changeListRequests : Obligations.ChangeListRequests := by
  refine ⟨fun tag b rest s h outside => act_owned h (ownXpAdd_range (readEntry_outside outside)),
    fun tag e rest s inRange => ?add,
    fun tag b rest s h outside => act_owned h (ownXpRemove_range (readPairBody_outside outside)),
    fun tag src dst rest s => ?remove,
    fun tag rest s h => ⟨fun listSealed => act_owned h (ownPatchDiscard_busy listSealed),
      fun unsealed => act_owned h (ownPatchDiscard_empties unsealed)⟩⟩
  case add =>
    intro c record edit h
    have read := readEntry_fields inRange
    refine ⟨fun listSealed => act_owned h (ownXpAdd_busy read listSealed),
      fun unsealed hr he room => act_owned h (ownXpAdd_append read unsealed (route_nothing hr he) room),
      fun unsealed hr he full => act_owned h (ownXpAdd_full read unsealed (route_nothing hr he) full),
      fun unsealed inView => ?inView, fun r d unsealed hr he => ?revived⟩
    case inView =>
      obtain ⟨hr, he⟩ | ⟨hr, a, he⟩ := inView
      · obtain ⟨r, reach⟩ := route_unedited hr he
        exact act_owned h (ownXpAdd_exists_record read unsealed reach)
      · exact act_owned h (ownXpAdd_exists_pending read unsealed (route_pendingAdd hr he))
    case revived =>
      have reach := route_edited hr (Option.isSome_of_eq_some he)
      refine act_owned h ((ownXpAdd_revive (s := taken rest s) read unsealed reach).trans ?_)
      rw [reviveRecord_eq]
      rfl
  case remove =>
    intro c record edit h
    have read := readPairBody_fields src dst
    refine ⟨fun listSealed => act_owned h (ownXpRemove_busy read listSealed),
      fun a unsealed hr he => act_owned h (ownXpRemove_delete read unsealed (route_pendingAdd hr he)),
      fun unsealed hr he room => ?appended, fun unsealed hr he full => ?full, fun unsealed absent => ?absent⟩
    case appended =>
      obtain ⟨r, reach⟩ := route_unedited hr he
      exact act_owned h (ownXpRemove_append read unsealed reach room)
    case full =>
      obtain ⟨r, reach⟩ := route_unedited hr he
      exact act_owned h (ownXpRemove_full read unsealed reach full)
    case absent =>
      obtain ⟨hr, he⟩ | ⟨hr, he⟩ := absent
      · obtain ⟨r, hr⟩ := Option.isSome_iff_exists.mp hr
        exact act_owned h (ownXpRemove_removed read unsealed (route_edited hr he))
      · exact act_owned h (ownXpRemove_nothing read unsealed (route_nothing hr he))

/-- Settles O31: each of the three requests writes through `writePair`, with the write of its rule. -/
theorem immediateRequests : Obligations.ImmediateRequests := by
  refine ⟨fun tag src dst gain code inRange => ?gain, fun tag src dst on => ?mute, fun tag src dst code => ?ramp,
    fun tag b rest s h outside => act_owned h (ownXpGain_range (readXpGainFields_outside outside)),
    fun tag b rest s h outside => act_owned h (ownXpMute_range (readXpMuteFields_outside outside)),
    fun tag b rest s h outside => act_owned h (ownXpRamp_range (readXpRampFields_outside outside))⟩
  case gain =>
    exact writesPair_of_owner (ownXpGain_inRange src dst code inRange) (writeGain_eq gain code) fun _ => rfl
  case mute => exact writesPair_of_owner (ownXpMute_inRange src dst on) (writeMute_eq on) fun _ => rfl
  case ramp => exact writesPair_of_owner (ownXpRamp_inRange src dst code) rfl fun _ => rfl

/-- Settles O33: the walk's answer is that of the first position that does not pass, by induction on the change list. -/
theorem commitSealsAValidList : Obligations.CommitSealsAValidList := by
  intro tag rest s h c held
  refine ⟨fun listSealed => act_owner_some h (ownPatchCommit_busy listSealed),
    fun unsealed empty => act_owner_some h (ownPatchCommit_empty unsealed empty),
    fun unsealed nonempty passes => ?seals, fun n d unsealed at_n before fails => ?conflict⟩
  case seals =>
    exact act_owner_none h (ownPatchCommit_seals unsealed nonempty (validateEdits_eq_none 0 passes))
  case conflict =>
    have nonempty : s.engine.edits ≠ [] := fun empty => by simp [empty] at at_n
    have walk := validateEdits_eq_some 0 at_n before fails
    rw [Nat.zero_add] at walk
    exact act_owner_some h (ownPatchCommit_conflict unsealed nonempty walk)

end Sys2Proof.PatchTable
end

section
/-! The converter links' status and commands (04_converter_links.md, R78 to R80): the answer of each owner case by
case, and from these the statement O39. -/

namespace Sys2Proof.Machine

open Sys2Proof.Safety

theorem act_reported {c : Instr} {rest : List RequestFrame} {s : State} {tag kind : Byte} {f : State → Answer}
    {a : Answer} (h : Takes c rest s) (answers : f (taken rest s) = a) :
    act (takeRequest c tag kind (reports f)) s = .next (replied rest tag kind a s) := by
  rw [act_takeRequest_reports h, answers]

theorem Relay.busy_iff {r : Relay} : r.busy = true ↔ r ≠ .idle := by
  cases r with
  | idle => simp [Relay.busy]
  | sending tag bytes => simp [Relay.busy]
  | awaiting tag periods reply => simp [Relay.busy]

/-! ### LINK_STATUS, case by case (R78) -/

theorem ownLinkStatus_range {n : Nat} (large : 8 ≤ n) (s : State) : ownLinkStatus (some n) s = Answer.range := by
  simp [ownLinkStatus, linkOf_large large]

theorem ownLinkStatus_link (i : Fin 8) (s : State) :
    ownLinkStatus (some i.val) s =
      let l := s.links[i]
      Answer.okData (.linkStatus
        { state := l.state, degraded := l.degraded, enable := l.enable, pause := l.pause, mask := l.mask
          recovery := l.recovery, errors := l.errors, run := l.run, missing := l.missing
          goodRun := if l.state = .align then some l.goodRun else none
          alignCount := if l.state = .align then some l.alignCount else none
          holdOff := if l.state = .fault then some l.holdOff else none
          reason := l.reason, locked := l.locked, relay := l.relay.view, slots := slotsPerLink s.gen.rate.mult }) := by
  simp [ownLinkStatus]

/-! ### CONVERTER_COMMAND, case by case (R79, R80) -/

section ConverterCommand

variable {tag : Byte} {b : ConverterCommandBody} {i : Fin 8} {s : State}

theorem ownConverterCommand_range (outside : 8 ≤ b.link ∨ b.bytes = [] ∨ 8 < b.bytes.length) :
    ownConverterCommand tag (some b) s = (s, some Answer.range) := by
  obtain large | empty | long := outside
  · simp [ownConverterCommand, linkOf_large large]
  · cases h : linkOf b.link with
    | none => simp [ownConverterCommand, h]
    | some i => simp [ownConverterCommand, h, empty]
  · cases h : linkOf b.link with
    | none => simp [ownConverterCommand, h]
    | some i => simp [ownConverterCommand, h, long]

variable (names : b.link = i.val) (nonempty : 1 ≤ b.bytes.length) (short : b.bytes.length ≤ 8)

include names nonempty short

/-- With its fields in range the command goes by the link's state and then by its relay. -/
theorem ownConverterCommand_inRange :
    ownConverterCommand tag (some b) s =
      if s.links[i].state = .active ∨ s.links[i].state = .paused then
        if s.links[i].relay.busy then (s, some (Answer.of .busy))
        else
          (s.onLink i fun l => { l with relay := .sending tag (BitVec.ofNat 8 (0xC0 + b.bytes.length) :: b.bytes) }, none)
      else (s, some (Answer.of .linkDown)) := by
  have inRange : ¬ (b.bytes.length < 1 ∨ 8 < b.bytes.length) := by omega
  simp only [ownConverterCommand, names, linkOf_val, if_neg inRange]

theorem ownConverterCommand_linkDown
    (down : s.links[i].state = .off ∨ s.links[i].state = .align ∨ s.links[i].state = .fault) :
    ownConverterCommand tag (some b) s = (s, some (Answer.of .linkDown)) := by
  have unaligned : ¬ (s.links[i].state = .active ∨ s.links[i].state = .paused) := by
    obtain h | h | h := down <;> rw [h] <;> decide
  rw [ownConverterCommand_inRange names nonempty short, if_neg unaligned]

theorem ownConverterCommand_busy (aligned : s.links[i].state = .active ∨ s.links[i].state = .paused)
    (engaged : s.links[i].relay ≠ .idle) :
    ownConverterCommand tag (some b) s = (s, some (Answer.of .busy)) := by
  rw [ownConverterCommand_inRange names nonempty short, if_pos aligned, if_pos (Relay.busy_iff.mpr engaged)]

theorem ownConverterCommand_taken (aligned : s.links[i].state = .active ∨ s.links[i].state = .paused)
    (idle : s.links[i].relay = .idle) :
    ownConverterCommand tag (some b) s =
      (s.onLink i fun l => { l with relay := .sending tag (BitVec.ofNat 8 (0xC0 + b.bytes.length) :: b.bytes) },
        none) := by
  rw [ownConverterCommand_inRange names nonempty short, if_pos aligned, if_neg fun h => Relay.busy_iff.mp h idle]

end ConverterCommand

end Sys2Proof.Machine

namespace Sys2Proof.ConverterLinks

open Sys2Proof.Machine Sys2Proof.Safety

/-- Settles O39: LINK_STATUS only reports, and CONVERTER_COMMAND goes by its fields, the link's state and its relay. -/
theorem linkStatusAndCommands : Obligations.LinkStatusAndCommands := by
  refine ⟨fun tag n rest s h => ⟨fun large => act_reported h (ownLinkStatus_range large _), ?status⟩,
    fun tag b rest s h => ⟨fun outside => act_owner_some h (ownConverterCommand_range outside), ?command⟩⟩
  case status =>
    rintro i rfl
    exact act_reported h (ownLinkStatus_link i _)
  case command =>
    intro i names nonempty short
    exact ⟨fun down => act_owner_some h (ownConverterCommand_linkDown names nonempty short down),
      fun aligned engaged => act_owner_some h (ownConverterCommand_busy names nonempty short aligned engaged),
      fun aligned idle => act_owner_none h (ownConverterCommand_taken names nonempty short aligned idle)⟩

end Sys2Proof.ConverterLinks
end

section
/-! The rule unit's reports and actions (08_event_rules_and_fader_laws.md, R141 to R159): what RULE_READ and LAW_READ
report, the writes of the actions on a record, each action kind by kind, what an offered update leaves, and from these the
statements O35 and O58. -/

namespace Sys2Proof.Machine

open Sys2Proof.Safety

/-! ### RULE_READ (R141) -/

@[simp] theorem ruleOf_val (n : Fin 512) : ruleOf n.val = some n := by simp [ruleOf]

theorem ruleOf_large {n : Nat} (h : 512 ≤ n) : ruleOf n = none := by simp [ruleOf]; omega

theorem RuleBlock.holds_iff (b : RuleBlock) (n : Nat) : b.holds n = true ↔ b.start ≤ n ∧ n < b.start + b.count := by
  simp [RuleBlock.holds]

theorem mem_surfaceNumbers (i : Fin 4) : i ∈ surfaceNumbers := by
  revert i; decide

theorem blockOwner_some {u : RuleUnit} {n : Nat} {i : Fin 4} (h : blockOwner u n = some i) :
    u.blocks[i].start ≤ n ∧ n < u.blocks[i].start + u.blocks[i].count := by
  have held := List.find?_some h
  exact (RuleBlock.holds_iff _ n).mp held

theorem blockOwner_none {u : RuleUnit} {n : Nat} (h : blockOwner u n = none) (i : Fin 4) :
    ¬ (u.blocks[i].start ≤ n ∧ n < u.blocks[i].start + u.blocks[i].count) := fun held =>
  List.find?_eq_none.mp h i (mem_surfaceNumbers i) ((RuleBlock.holds_iff _ n).mpr held)

theorem ownRuleRead_range {n : Nat} (large : 512 ≤ n) (s : State) : ownRuleRead (some n) s = Answer.range := by
  simp [ownRuleRead, ruleOf_large large]

theorem ownRuleRead_rule (n : Fin 512) (s : State) :
    ownRuleRead (some n.val) s = Answer.okData (.rule s.rules.rules[n] (blockOwner s.rules n.val)) := by
  simp [ownRuleRead]

/-! ### LAW_READ (R157) -/

theorem ownLawRead_range {start : Nat} (large : 121 < start) (s : State) :
    ownLawRead (some start) s = Answer.range := by
  simp [ownLawRead, within_outside (lo := 0) (.inr large)]

theorem ownLawRead_entries {start : Nat} (inRange : start ≤ 121) (s : State) :
    ∃ entries, ownLawRead (some start) s = Answer.okData (.law entries) ∧
      entries.length = 8 ∧ ∀ j < 8, entries[j]? = s.rules.law[start + j]? := by
  refine ⟨(List.range 8).map fun j => s.rules.law[start + j]?.getD 0, ?_, by simp, fun j small => ?_⟩
  · simp [ownLawRead, within_inside (Nat.zero_le start) inRange]
  · have inLaw : start + j < 129 := by omega
    simp [List.getElem?_range small, Vector.getElem?_eq_getElem inLaw]

/-! ### The writes of the actions on a record (R146 to R149, R158, R159) -/

theorem saturate_eq {lo hi : Int} (ordered : lo ≤ hi) (x : Int) : saturate lo hi x = max lo (min hi x) := by
  unfold saturate
  split
  · omega
  · split <;> omega

theorem lawCoefficient_eq {law : Vector Int 129} {p : Nat} {low high : Int} (hlow : law[p / 8]? = some low)
    (hhigh : law[p / 8 + 1]? = some high) :
    lawCoefficient law p = low + ((high - low) * (p % 8 : Nat)).tdiv 8 := by
  simp [lawCoefficient, hlow, hhigh]

theorem driveRecord_eq (gain : Int) (code : RampCode) :
    driveRecord gain code = fun q => restartedFrom q code { q with setGain := gain } :=
  funext fun _ => retarget_eq ..

theorem nudgeRecord_eq (turn : Int) (step : Nat) :
    nudgeRecord turn step = fun q => restartedFrom q q.ramp
      { q with setGain := max (-8388608) (min 8388607 (q.setGain + turn * step)) } := by
  funext q
  rw [nudgeRecord, retarget_eq, nudge, saturate_eq (by decide)]

theorem toggleRecord_eq : toggleRecord = fun q => restartedFrom q q.ramp { q with muted := !q.muted } :=
  funext fun _ => retarget_eq ..

/-- The end of a hold makes an automation gain the set gain, under its own code (R152). -/
theorem releaseHold_eq :
    releaseHold = fun q => match q.automation with
      | none => { q with owner := none }
      | some (gain, code) => restartedFrom q code { q with setGain := gain, owner := none, automation := none } := by
  funext q
  unfold releaseHold
  cases q.automation with
  | none => rfl
  | some held => exact retarget_eq ..

/-! ### The actions on a pair (R144, R146 to R148) -/

section Pair

variable {link : Fin 4} {src dst : Slot} {s : State} {r : Crosspoint}

theorem onPair_missed (act : Crosspoint → State → State) (absent : findRecord s.engine.table src dst = none) :
    onPair src dst act s = countMissed s := by
  simp [onPair, absent]

theorem onPair_found (act : Crosspoint → State → State) (found : findRecord s.engine.table src dst = some r) :
    onPair src dst act s = act r s := by
  simp [onPair, found]

theorem surfaceGain_free (f : Crosspoint → Crosspoint) (found : findRecord s.engine.table src dst = some r)
    (free : r.owner = none ∨ r.owner = some link) : surfaceGain link src dst f s = writeRecord src dst f s :=
  (onPair_found _ found).trans (if_pos free)

theorem surfaceGain_held (f : Crosspoint → Crosspoint) (found : findRecord s.engine.table src dst = some r)
    (held : ¬ (r.owner = none ∨ r.owner = some link)) : surfaceGain link src dst f s = countHeldSkip s :=
  (onPair_found _ found).trans (if_neg held)

theorem touchPair_claims (found : findRecord s.engine.table src dst = some r) (unowned : r.owner = none) :
    touchPair link src dst true s = writeRecord src dst (holdRecord link) s := by
  rw [touchPair, onPair_found _ found, if_pos rfl, unowned]

theorem touchPair_own (found : findRecord s.engine.table src dst = some r) (own : r.owner = some link) :
    touchPair link src dst true s = s := by
  simp [touchPair, onPair_found _ found, own]

theorem touchPair_held (found : findRecord s.engine.table src dst = some r)
    (held : ¬ (r.owner = none ∨ r.owner = some link)) : touchPair link src dst true s = countHeldSkip s := by
  rw [touchPair, onPair_found _ found, if_pos rfl]
  cases ho : r.owner with
  | none => exact absurd (.inl ho) held
  | some other =>
    have others : other ≠ link := fun e => held (.inr (e ▸ ho))
    exact if_neg others

theorem touchPair_releases (found : findRecord s.engine.table src dst = some r) (own : r.owner = some link) :
    touchPair link src dst false s = writeRecord src dst releaseHold s := by
  simp [touchPair, onPair_found _ found, own]

theorem touchPair_notOwn (found : findRecord s.engine.table src dst = some r) (others : r.owner ≠ some link) :
    touchPair link src dst false s = s := by
  simp [touchPair, onPair_found _ found, others]

end Pair

/-! ### Surface events (R145, R175) -/

theorem stampNow_inPeriod {s : State} (h : s.boundary.taken = false) : stampNow s = s.gen.sampleCounter := by
  simp [stampNow, h]

theorem postEvent_room (e : SurfaceEvent) {s : State} (h : s.mgmt.events.length < 128) :
    postEvent e s = s.onMgmt fun m =>
      { m with
        events := m.events ++ [e]
        counters := { m.counters with eventsQueued := bump32 m.counters.eventsQueued } } := by
  simp [postEvent, State.onMgmt, h]

theorem postEvent_full (e : SurfaceEvent) {s : State} (h : 128 ≤ s.mgmt.events.length) :
    postEvent e s = s.onMgmt fun m =>
      { m with
        pendingLoss := bump 65535 m.pendingLoss
        counters := { m.counters with eventsLost := bump32 m.counters.eventsLost } } := by
  simp [postEvent, State.onMgmt, not_lt.mpr h]

/-! ### Update sets (R129) -/

section Offers

variable {kind : UpdateKind} {address : Nat} (value : Nat) {f : Surface}

theorem Surface.offered_replaces (present : ∃ u ∈ f.updates, u.kind = kind ∧ u.address = address) :
    f.offered kind address value = { f with
      updates := f.updates.map fun u => if u.kind = kind ∧ u.address = address then { u with value := value } else u } := by
  have any : f.updates.any (fun u => u.kind = kind ∧ u.address = address) = true := by simpa using present
  simp only [Surface.offered, placeUpdate, if_pos any]

variable (absent : ∀ u ∈ f.updates, ¬ (u.kind = kind ∧ u.address = address))
include absent

theorem placeUpdate_absent :
    placeUpdate kind address value f.updates =
      if f.updates.length < 32 then (f.updates ++ [⟨kind, address, value, 0⟩], .appended) else (f.updates, .dropped) := by
  have any : ¬ f.updates.any (fun u => u.kind = kind ∧ u.address = address) = true := by simpa using absent
  rw [placeUpdate, if_neg any]

theorem Surface.offered_appends (room : f.updates.length < 32) :
    f.offered kind address value = { f with updates := f.updates ++ [⟨kind, address, value, 0⟩] } := by
  rw [Surface.offered, placeUpdate_absent value absent, if_pos room]

theorem Surface.offered_drops (full : 32 ≤ f.updates.length) :
    f.offered kind address value = { f with counters := { f.counters with overflow := bump32 f.counters.overflow } } := by
  rw [Surface.offered, placeUpdate_absent value absent, if_neg (not_lt.mpr full)]

end Offers

section OfferUpdate

variable {link : Fin 4} (kind : UpdateKind) (address value : Nat) {s : State}

theorem offerUpdate_notOnline (h : s.surfaces[link].state ≠ .online) : offerUpdate link kind address value s = s :=
  if_neg h

theorem offerUpdate_online (h : s.surfaces[link].state = .online) :
    offerUpdate link kind address value s =
      { s with surfaces := s.surfaces.set link (s.surfaces[link].offered kind address value) } :=
  if_pos h

end OfferUpdate

/-! ### What each action runs, kind by kind (R145 to R150) -/

section RunAction

variable {m : InMessage} {src dst : Slot} {code : RampCode} {step address : Nat} {link : Fin 4} {s : State}

theorem runAction_forward (label : Nat) :
    runAction m (.forward label) s = postEvent ⟨m.link, m.kind, m.address, m.value, label, stampNow s⟩ s := rfl

theorem runAction_driveGain_position (h : m.kind = .position) :
    runAction m (.driveGain src dst code) s =
      surfaceGain m.link src dst (driveRecord (lawCoefficient s.rules.law m.value.toNat) code) s := by
  simp [runAction, h]

theorem runAction_driveGain_touch (h : m.kind = .touch) :
    runAction m (.driveGain src dst code) s = touchPair m.link src dst (decide (m.value = 1)) s := by
  simp [runAction, h]

theorem runAction_driveGain_skipped (h : m.kind = .press ∨ m.kind = .turn) :
    runAction m (.driveGain src dst code) s = s := by
  obtain h | h := h <;> simp [runAction, h]

theorem runAction_nudgeGain_turn (h : m.kind = .turn) :
    runAction m (.nudgeGain src dst step) s = surfaceGain m.link src dst (nudgeRecord m.value step) s := by
  simp [runAction, h]

theorem runAction_nudgeGain_skipped (h : m.kind ≠ .turn) : runAction m (.nudgeGain src dst step) s = s := by
  cases hk : m.kind with
  | turn => exact absurd hk h
  | position | touch | press => simp [runAction, hk]

theorem runAction_toggleMute_pressed (h : m.kind = .press) (pressed : m.value = 1) :
    runAction m (.toggleMute src dst) s = onPair src dst (fun _ => writeRecord src dst toggleRecord) s := by
  simp [runAction, h, pressed]

theorem runAction_toggleMute_skipped (h : m.kind ≠ .press ∨ m.value ≠ 1) :
    runAction m (.toggleMute src dst) s = s := by
  cases hk : m.kind with
  | press =>
    have released : m.value ≠ 1 := h.resolve_left fun other => other hk
    simp [runAction, hk, released]
  | position | touch | turn => simp [runAction, hk]

theorem runAction_echo (h : m.kind = .position ∨ m.kind = .press) :
    runAction m (.echo link address) s =
      offerUpdate link (if m.kind = .position then .setPosition else .lamp) address m.value.toNat s := by
  obtain h | h := h <;> simp [runAction, h]

theorem runAction_echo_skipped (h : m.kind = .touch ∨ m.kind = .turn) : runAction m (.echo link address) s = s := by
  obtain h | h := h <;> simp [runAction, h]

end RunAction

end Sys2Proof.Machine

namespace Sys2Proof.EventRules

open Sys2Proof.Machine Sys2Proof.Safety

/-- Settles O35: both requests only report, by the readers of their numbers. -/
theorem ruleUnitReads : Obligations.RuleUnitReads := by
  refine ⟨fun tag n rest s h => ⟨fun small => ?rule, fun large => act_reported h (ownRuleRead_range large _)⟩,
    fun tag start rest s h => ⟨fun inRange => ?law, fun large => act_reported h (ownLawRead_range large _)⟩⟩
  case rule =>
    exact ⟨blockOwner s.rules n, act_reported h (ownRuleRead_rule ⟨n, small⟩ _), fun _ => blockOwner_some,
      blockOwner_none⟩
  case law =>
    obtain ⟨entries, answers, eight, values⟩ := ownLawRead_entries inRange (taken rest s)
    exact ⟨entries, act_reported h answers, eight, values⟩

/-- Settles O58: each action by its kind's rule on the pair, the event queue or the update set it names. -/
theorem actionsActOnTheirMessage : Obligations.ActionsActOnTheirMessage := by
  intro m s missed heldSkip writes free
  refine ⟨fun label inPeriod room => ?queued, fun label full => ?lost,
    fun src dst code low high p position value _ hlow hhigh => ?drive, fun src dst code touch => ?touch,
    fun src dst step turn => ?nudge, fun src dst press pressed => ?toggle,
    fun link address kind => runAction_echo kind, fun link kind address value => ?offer, fun a skipped => ?skip⟩
  case queued =>
    rw [runAction_forward, stampNow_inPeriod inPeriod, postEvent_room _ room]
    rfl
  case lost =>
    rw [runAction_forward, postEvent_full _ full]
    rfl
  case drive =>
    rw [runAction_driveGain_position position, value, Int.toNat_natCast, lawCoefficient_eq hlow hhigh, driveRecord_eq]
    exact ⟨onPair_missed _, fun r found => ⟨surfaceGain_free _ found, surfaceGain_held _ found⟩⟩
  case touch =>
    rw [runAction_driveGain_touch touch]
    refine ⟨onPair_missed _, fun r found => ⟨fun pressed => ?claims, fun pressed => ?own, fun pressed => ?held,
      fun lifted own => ?releases, fun lifted => ?notOwn⟩⟩
    case claims => rw [pressed]; exact touchPair_claims found
    case own => rw [pressed]; exact touchPair_own found
    case held => rw [pressed]; exact touchPair_held found
    case releases =>
      rw [lifted]
      exact (touchPair_releases found own).trans (congrArg (writes src dst) releaseHold_eq)
    case notOwn => rw [lifted]; exact touchPair_notOwn found
  case nudge =>
    rw [runAction_nudgeGain_turn turn, nudgeRecord_eq]
    exact ⟨onPair_missed _, fun r found => ⟨surfaceGain_free _ found, surfaceGain_held _ found⟩⟩
  case toggle =>
    rw [runAction_toggleMute_pressed press pressed, toggleRecord_eq]
    refine ⟨onPair_missed _, fun present => ?_⟩
    obtain ⟨r, found⟩ := Option.isSome_iff_exists.mp present
    exact onPair_found _ found
  case offer =>
    intro f leaves same
    have leaves_of (online : f.state = .online) {f' : Surface} (offered : f.offered kind address value = f') : leaves f' :=
      offered ▸ offerUpdate_online kind address value online
    exact ⟨offerUpdate_notOnline kind address value,
      fun online present => leaves_of online (Surface.offered_replaces value present),
      fun online absent room => leaves_of online (Surface.offered_appends value absent room),
      fun online absent full => leaves_of online (Surface.offered_drops value absent full)⟩
  case skip =>
    cases a with
    | forward label => exact skipped.elim
    | driveGain src dst code => exact runAction_driveGain_skipped skipped
    | nudgeGain src dst step => exact runAction_nudgeGain_skipped skipped
    | toggleMute src dst => exact runAction_toggleMute_skipped skipped
    | echo link address => exact runAction_echo_skipped skipped

end Sys2Proof.EventRules
end

/-! The statements about the model itself. The text is compiled as one, under a limit of memory: a theorem that settles a
statement is elaborated alone, not beside others (`Elab.async false`). -/

namespace Sys2Proof.Machine

open Sys2Proof.Safety

/-! How a law of the part is carried through a step. A law reads some parts of State (`Reads`), and an operation that touches
none of them keeps it. `TakingsKeep`, `EventsKeep` and `BoundaryKeep` ask of a law only that the operations which touch a
part it reads keep it; from the three together every step keeps it (`step_keeps`). -/

/-! ### The parts a law reads -/

/-- The two lists have a part in common. -/
abbrev Meets (a b : List Part) : Prop := (a.any fun p => b.contains p) = true

theorem meets_of_mem {a b : List Part} {p : Part} (ha : p ∈ a) (hb : p ∈ b) : Meets a b :=
  List.any_eq_true.mpr ⟨p, ha, List.contains_iff_mem.mpr hb⟩

/-- What is asked only of an operation that touches a part the law reads holds of one that does not. -/
theorem untouched {meets : Bool} {p : Prop} (apart : meets = false) : meets = true → p :=
  fun touched => absurd (apart.symm.trans touched) Bool.false_ne_true

/-- `t` has these parts of `s`. -/
structure Agree (parts : List Part) (s t : State) : Prop where
  free : Part.free ∈ parts → t.free = s.free
  gen : Part.gen ∈ parts → t.gen = s.gen
  boundary : Part.boundary ∈ parts → t.boundary = s.boundary
  clock : Part.clock ∈ parts → t.clock = s.clock
  links : Part.links ∈ parts → t.links = s.links
  uplink : Part.uplink ∈ parts → t.uplink = s.uplink
  engine : Part.engine ∈ parts → t.engine = s.engine
  surfaces : Part.surfaces ∈ parts → t.surfaces = s.surfaces
  rules : Part.rules ∈ parts → t.rules = s.rules
  meter : Part.meter ∈ parts → t.meter = s.meter
  mgmt : Part.mgmt ∈ parts → t.mgmt = s.mgmt
  device : Part.device ∈ parts → t.device = s.device

/-- An operation leaves the parts that it does not touch. -/
theorem Touches.agree {parts others : List Part} {s t : State} (touches : Touches others s t)
    (apart : ¬ Meets others parts) : Agree parts s t where
  free m := touches.free fun n => apart (meets_of_mem n m)
  gen m := touches.gen fun n => apart (meets_of_mem n m)
  boundary m := touches.boundary fun n => apart (meets_of_mem n m)
  clock m := touches.clock fun n => apart (meets_of_mem n m)
  links m := touches.links fun n => apart (meets_of_mem n m)
  uplink m := touches.uplink fun n => apart (meets_of_mem n m)
  engine m := touches.engine fun n => apart (meets_of_mem n m)
  surfaces m := touches.surfaces fun n => apart (meets_of_mem n m)
  rules m := touches.rules fun n => apart (meets_of_mem n m)
  meter m := touches.meter fun n => apart (meets_of_mem n m)
  mgmt m := touches.mgmt fun n => apart (meets_of_mem n m)
  device m := touches.device fun n => apart (meets_of_mem n m)

/-- The law `P` is a matter of these parts of State alone. -/
def Reads (parts : List Part) (P : State → Prop) : Prop := ∀ {s t : State}, Agree parts s t → P s → P t

section Reads

variable {parts : List Part} {P : State → Prop}

/-- The commands that wait and the free values are no part of a law that does not read the latter. -/
theorem Reads.queue (reads : Reads parts P) (q : List Instr) {s : State} (h : P s) : P { s with pending := q } :=
  reads (s := s)
    { free := fun _ => rfl, gen := fun _ => rfl, boundary := fun _ => rfl, clock := fun _ => rfl,
      links := fun _ => rfl, uplink := fun _ => rfl, engine := fun _ => rfl, surfaces := fun _ => rfl,
      rules := fun _ => rfl, meter := fun _ => rfl, mgmt := fun _ => rfl, device := fun _ => rfl } h

/-- An operation done to the members of a list one after the other keeps what each of them keeps. -/
theorem foldl_keeps {α : Type} {Q : State → Prop} {f : State → α → State} (each : ∀ s a, Q s → Q (f s a)) :
    ∀ (l : List α) (s : State), Q s → Q (l.foldl f s)
  | [], _, h => h
  | a :: l, s, h => foldl_keeps each l (f s a) (each s a h)

end Reads

/-! ### The operations that touch what a law reads -/

theorem countBad_touches (s : State) : Touches [.uplink] s (countBad s) := onUplink_touches _ s

theorem takeDownBlock_touches (b : DownBlock) (s : State) : Touches [.uplink, .mgmt] s (takeDownBlock b s) := by
  unfold takeDownBlock
  dsimp only
  refine (hearFrame_touches s).trans ?_
  split
  · exact (onUplink_touches _ _).mono (by simp)
  · exact (countBad_touches _).mono (by simp)

theorem startPeriod_touches (s : State) : Touches [.free, .gen, .boundary, .clock, .links] s (startPeriod s) := by
  rewrite [startPeriod_eq]
  constructor <;> simp

theorem stepRamps_touches (s : State) : Touches [.engine] s (stepRamps s) := onEngine_touches _ s

theorem mixPeriod_touches (s : State) : Touches [.engine] s (mixPeriod s) := by
  unfold mixPeriod; exact onEngine_touches _ s

theorem periodWork_touches (s : State) : Touches [.links, .engine, .meter, .mgmt] s (periodWork s) := by
  rewrite [periodWork_eq]
  constructor <;> simp

/-! ### The operations a step is made of -/

/-- A family of operations that touch no part but these. -/
structure Act where
  parts : List Part
  Index : Type
  run : Index → State → State
  touches : ∀ i s, Touches parts s (run i s)

namespace Act

noncomputable abbrev one {parts : List Part} {f : State → State} (h : ∀ s, Touches parts s (f s)) : Act :=
  ⟨parts, Unit, fun _ => f, fun _ => h⟩

noncomputable abbrev of {parts : List Part} {α : Type} {f : α → State → State} (h : ∀ a s, Touches parts s (f a s)) : Act :=
  ⟨parts, α, f, h⟩

noncomputable abbrev of₂ {parts : List Part} {α β : Type} {f : α → β → State → State} (h : ∀ a b s, Touches parts s (f a b s)) : Act :=
  ⟨parts, α × β, fun i => f i.1 i.2, fun i => h i.1 i.2⟩

noncomputable abbrev of₃ {parts : List Part} {α β γ : Type} {f : α → β → γ → State → State}
    (h : ∀ a b c s, Touches parts s (f a b c s)) : Act :=
  ⟨parts, α × β × γ, fun i => f i.1 i.2.1 i.2.2, fun i => h i.1 i.2.1 i.2.2⟩

/-- Every run of the operation is in the relation. -/
def Within (R : State → State → Prop) : Act → Prop
  | ⟨_, _, run, _⟩ => ∀ i s, R s (run i s)

/-- Every run of the operations is in the relation. -/
def AllWithin (R : State → State → Prop) : List Act → Prop
  | [] => True
  | a :: l => a.Within R ∧ AllWithin R l

/-- The operation keeps the law. -/
abbrev Keeps (P : State → Prop) : Act → Prop := Within fun s t => P s → P t

variable {R Q : State → State → Prop}

theorem within (a : Act) (h : a.Within R) : ∀ i s, R s (a.run i s) := h

theorem of_runs {a : Act} (h : ∀ i s, R s (a.run i s)) : a.Within R := h

theorem AllWithin.mono (le : ∀ {s t}, R s t → Q s t) : ∀ {l : List Act}, AllWithin R l → AllWithin Q l
  | [], h => h
  | ⟨_, _, _, _⟩ :: _, h => ⟨fun i s => le (h.1 i s), AllWithin.mono le h.2⟩

theorem AllWithin.append : ∀ {l m : List Act}, AllWithin R l → AllWithin R m → AllWithin R (l ++ m)
  | [], _, _, k => k
  | _ :: _, _, h, k => ⟨h.1, AllWithin.append h.2 k⟩

theorem AllWithin.of_mem : ∀ {l : List Act}, AllWithin R l → ∀ {a}, a ∈ l → a.Within R
  | _ :: _, h, _, .head _ => h.1
  | _ :: _, h, _, .tail _ m => AllWithin.of_mem h.2 m

/-- Of some operations a law has to be shown kept only by those that touch a part it reads. -/
theorem keeps_of {parts : List Part} {P : State → Prop} (reads : Reads parts P) {all some : List Act}
    (touching : (all.filter fun a => a.parts.any parts.contains) = some) (kept : AllWithin (fun s t => P s → P t) some)
    {a : Act} (m : a ∈ all) : a.Keeps P := by
  by_cases meets : Meets a.parts parts
  · exact kept.of_mem (touching ▸ List.mem_filter.mpr ⟨m, meets⟩)
  · obtain ⟨_, _, _, touches⟩ := a
    exact fun i s => reads ((touches i s).agree meets)

end Act

/-! ### The taking of requests -/

/-- The parts of the taking of a request: the front end and the owners that do more than report. -/
inductive Taking
  | hear | count | pop | reply | unknown
  | xpAdd | xpRemove | xpGain | xpMute | xpRamp | patchCommit | patchDiscard
  | ruleWrite | ruleBlocks | lawWrite | surfaceSend | surfaceConfig
  | linkConfig | linkRestart | setPause | converterCommand
  | clockCandidates | clockRate | wclkOut | meterPoints | meterConfig | meterThresholds
  | modeSet | uplinkConfig | deviceReset | storeWrite | clear

namespace Taking

noncomputable abbrev act : Taking → Act
  | hear => .one hearFrame_touches
  | count => .of countRequest_touches
  | pop => .of (f := taken) fun rest => onMgmt_touches fun m => { m with requests := rest }
  | reply => .of₃ pushReply_touches
  | unknown => .one ownUnknown_touches
  | xpAdd => .of ownXpAdd_touches
  | xpRemove => .of ownXpRemove_touches
  | xpGain => .of ownXpGain_touches
  | xpMute => .of ownXpMute_touches
  | xpRamp => .of ownXpRamp_touches
  | patchCommit => .of₂ ownPatchCommit_touches
  | patchDiscard => .of ownPatchDiscard_touches
  | ruleWrite => .of ownRuleWrite_touches
  | ruleBlocks => .of ownRuleBlocks_touches
  | lawWrite => .of ownLawWrite_touches
  | surfaceSend => .of ownSurfaceSend_touches
  | surfaceConfig => .of ownSurfaceConfig_touches
  | linkConfig => .of ownLinkConfig_touches
  | linkRestart => .of ownLinkRestart_touches
  | setPause => .of₂ setPause_touches
  | converterCommand => .of₂ ownConverterCommand_touches
  | clockCandidates => .of ownClockCandidates_touches
  | clockRate => .of ownClockRate_touches
  | wclkOut => .of ownWclkOut_touches
  | meterPoints => .of ownMeterPoints_touches
  | meterConfig => .of ownMeterConfig_touches
  | meterThresholds => .of ownMeterThresholds_touches
  | modeSet => .of ownModeSet_touches
  | uplinkConfig => .of ownUplinkConfig_touches
  | deviceReset => .of ownDeviceReset_touches
  | storeWrite => .of₂ ownStoreWrite_touches
  | clear => .of clearGroup_touches

def all : List Taking :=
  [hear, count, pop, reply, unknown, xpAdd, xpRemove, xpGain, xpMute, xpRamp, patchCommit, patchDiscard, ruleWrite,
    ruleBlocks, lawWrite, surfaceSend, surfaceConfig, linkConfig, linkRestart, setPause, converterCommand,
    clockCandidates, clockRate, wclkOut, meterPoints, meterConfig, meterThresholds, modeSet, uplinkConfig, deviceReset,
    storeWrite, clear]

theorem all_ctorIdx : ∀ w : Taking, all[w.ctorIdx]? = some w
  | hear | count | pop | reply | unknown | xpAdd | xpRemove | xpGain | xpMute | xpRamp | patchCommit | patchDiscard
  | ruleWrite | ruleBlocks | lawWrite | surfaceSend | surfaceConfig | linkConfig | linkRestart | setPause
  | converterCommand | clockCandidates | clockRate | wclkOut | meterPoints | meterConfig | meterThresholds | modeSet
  | uplinkConfig | deviceReset | storeWrite | clear => rfl

theorem keeps {parts : List Part} {P : State → Prop} (reads : Reads parts P) (some : List Taking)
    (touching : ((all.map act).filter fun a => a.parts.any parts.contains) = some.map act)
    (kept : Act.AllWithin (fun s t => P s → P t) (some.map act)) (w : Taking) : w.act.Keeps P :=
  Act.keeps_of reads touching kept (List.mem_map_of_mem (List.mem_of_getElem? w.all_ctorIdx))

end Taking

theorem unchanged {P : State → Prop} (s : State) (h : P s) : P s := h

section Takings

variable {P : State → Prop} (keep : ∀ w : Taking, w.act.Keeps P)
include keep

/-- The answering of a request keeps what its owner keeps. -/
theorem answer_keeps {owner : Owner} (owns : ∀ t, P t → P (owner t).1) (tag kind : Byte) (s : State) (h : P s) :
    P (answer tag kind owner s) := by
  have owned := owns s h
  unfold answer
  split
  · next t a e =>
    rewrite [e] at owned
    exact keep .reply (tag, kind, a) t owned
  · next t e => rwa [e] at owned

/-- The taking of a request keeps what its owner keeps. -/
theorem takeRequest_keeps {owner : Owner} (owns : ∀ t, P t → P (owner t).1) {i : Instr} {tag kind : Byte} (s : State)
    (h : P s) : P (takeRequest i tag kind owner s) := by
  have answered := answer_keeps keep owns tag kind
  have heard (d : Bool) := keep .count d _ (keep .hear () s h)
  obtain ⟨r, rest, -, -, e⟩ | ⟨-, -, -, -, e⟩ | ⟨-, -, e⟩ | ⟨-, -, e⟩ := takeRequest_cases i tag kind owner s <;>
    rewrite [e]
  · exact answered _ (keep .pop rest s h)
  · exact h
  · exact answered _ (heard false)
  · exact heard true

theorem setPause_keeps (on : Bool) (link : Option Nat) (s : State) (h : P s) :
    P (match link.bind linkOf with
      | none => (s, Answer.range)
      | some i => (setPause on i s, Answer.ok)).1 := by
  split
  · exact h
  · exact keep .setPause (on, _) s h

theorem ownCountersRead_keeps (body) (s : State) (h : P s) : P (ownCountersRead body s).1 := by
  unfold ownCountersRead
  split
  · exact h
  · dsimp only
    split
    · exact keep .clear _ s h
    · exact h

/-- The taking of any request keeps the law. -/
theorem takeDecoded_keeps : ∀ i s, P s → P (takeDecoded i s)
  | .unknown .. => takeRequest_keeps keep (keep .unknown ())
  | .xpAdd .. => takeRequest_keeps keep (keep .xpAdd _)
  | .xpRemove .. => takeRequest_keeps keep (keep .xpRemove _)
  | .xpGain .. => takeRequest_keeps keep (keep .xpGain _)
  | .xpMute .. => takeRequest_keeps keep (keep .xpMute _)
  | .xpRamp .. => takeRequest_keeps keep (keep .xpRamp _)
  | .patchCommit .. => takeRequest_keeps keep (keep .patchCommit (_, _))
  | .patchDiscard .. => takeRequest_keeps keep (keep .patchDiscard _)
  | .ruleWrite .. => takeRequest_keeps keep (keep .ruleWrite _)
  | .ruleBlocks .. => takeRequest_keeps keep (keep .ruleBlocks _)
  | .lawWrite .. => takeRequest_keeps keep (keep .lawWrite _)
  | .surfaceSend .. => takeRequest_keeps keep (keep .surfaceSend _)
  | .surfaceConfig .. => takeRequest_keeps keep (keep .surfaceConfig _)
  | .linkConfig .. => takeRequest_keeps keep (keep .linkConfig _)
  | .linkRestart .. => takeRequest_keeps keep (keep .linkRestart _)
  | .linkPause .. => takeRequest_keeps keep (setPause_keeps keep true _)
  | .linkResume .. => takeRequest_keeps keep (setPause_keeps keep false _)
  | .converterCommand .. => takeRequest_keeps keep (keep .converterCommand (_, _))
  | .clockCandidates .. => takeRequest_keeps keep (keep .clockCandidates _)
  | .clockRate .. => takeRequest_keeps keep (keep .clockRate _)
  | .wclkOut .. => takeRequest_keeps keep (keep .wclkOut _)
  | .meterPoints .. => takeRequest_keeps keep (keep .meterPoints _)
  | .meterConfig .. => takeRequest_keeps keep (keep .meterConfig _)
  | .meterThresholds .. => takeRequest_keeps keep (keep .meterThresholds _)
  | .modeSetSetup .. | .modeSetOperate .. => takeRequest_keeps keep (keep .modeSet _)
  | .uplinkConfig .. => takeRequest_keeps keep (keep .uplinkConfig _)
  | .deviceReset .. => takeRequest_keeps keep (keep .deviceReset _)
  | .storeWrite .. => takeRequest_keeps keep (keep .storeWrite (_, _))
  | .countersRead .. => takeRequest_keeps keep (ownCountersRead_keeps keep _)
  | .xpRead .. | .patchList .. | .ruleRead .. | .lawRead .. | .surfaceStatus .. | .linkStatus .. | .clockStatus ..
  | .deviceInfo .. | .storeStatus .. => takeRequest_keeps keep unchanged
  | .powerOn | .powerLoss | .samplePeriod | .blockBoundary | .wclkOutLatch .. | .upBlockSent | .commitApply | .rateChange
  | .uplinkConfigEffect | .resetBoundary | .uplinkLoss | .fallbackDecision | .downBlock .. | .request .. | .badFrame
  | .storeWriteComplete | .frameStart .. | .converterFrame .. | .frameIncomplete .. | .missingFrame .. | .noSync ..
  | .holdOffExpiry .. | .commandTimeout .. | .wordclockEdge .. | .edgeLoss .. | .pullInCount | .holdoverExpiry
  | .hello .. | .keepalive .. | .position .. | .touch .. | .press .. | .turn .. | .malformedMessage ..
  | .messageIncomplete .. | .silenceTimerExpiry .. | .sendIntervalExpiry .. | .meterReport | .meterPromotion
  | .arbiterChoice | .messageFrameEnd => unchanged

end Takings

/-! ### The events and the steps of the boundary -/

/-- The operations that a command, the end of a sample period and a block boundary are made of. -/
inductive Work
  | down | complete | frameStart | receive | incomplete | miss | noSync | holdOff | timeOut | edge | edgeLoss | pullIn
  | expiry | hello | silence | take | bad | keepalive | message | discard | incompleteRun | interval | blockSent
  | choice | frameEnd | latch | commit | rate | config | loss | fallback | report | promotion | work

namespace Work

noncomputable abbrev act : Work → Act
  | take => .of takeDecoded_touches
  | down => .of takeDownBlock_touches
  | bad => .one countBad_touches
  | complete => .one completeStore_touches
  | frameStart => .of₃ startFrame_touches
  | receive => .of₂ receiveFrame_touches
  | incomplete => .of loseFrame_touches
  | miss => .of missFrame_touches
  | noSync => .of failAlign_touches
  | holdOff => .of expireHoldOff_touches
  | timeOut => .of timeOutCommand_touches
  | edge => .of₃ referenceEdge_touches
  | edgeLoss => .of loseEdges_touches
  | pullIn => .one finishPullIn_touches
  | expiry => .one expiryStep_touches
  | hello => .of₂ hearHello_touches
  | keepalive => .of hearKeepalive_touches
  | message => .of₂ hearMessage_touches
  | discard => .of₂ discardRun_touches
  | incompleteRun => .of discardIncomplete_touches
  | silence => .of expireSilence_touches
  | interval => .of expireInterval_touches
  | blockSent => .one endBlock_touches
  | choice => .one arbitrate_touches
  | frameEnd => .one endMessage_touches
  | latch => .of latchOutput_touches
  | commit => .one applyCommit_touches
  | rate => .one changeRate_touches
  | config => .one effectConfig_touches
  | loss => .one loseUplink_touches
  | fallback => .one decideFallback_touches
  | report => .one reportMeters_touches
  | promotion => .one promoteReport_touches
  | work => .one periodWork_touches

def all : List Work :=
  [down, complete, frameStart, receive, incomplete, miss, noSync, holdOff, timeOut, edge, edgeLoss, pullIn, expiry,
    hello, silence, take, bad, keepalive, message, discard, incompleteRun, interval, blockSent, choice, frameEnd, latch,
    commit, rate, config, loss, fallback, report, promotion, work]

theorem all_ctorIdx : ∀ w : Work, all[w.ctorIdx]? = some w
  | down | complete | frameStart | receive | incomplete | miss | noSync | holdOff | timeOut | edge | edgeLoss | pullIn
  | expiry | hello | silence | take | bad | keepalive | message | discard | incompleteRun | interval | blockSent
  | choice | frameEnd | latch | commit | rate | config | loss | fallback | report | promotion | work => rfl

theorem keeps {parts : List Part} {P : State → Prop} (reads : Reads parts P) (some : List Work)
    (touching : ((all.map act).filter fun a => a.parts.any parts.contains) = some.map act)
    (kept : Act.AllWithin (fun s t => P s → P t) (some.map act)) (w : Work) : w.act.Keeps P :=
  Act.keeps_of reads touching kept (List.mem_map_of_mem (List.mem_of_getElem? w.all_ctorIdx))

end Work

/-- The command is a step of the boundary or the arrival of a request, or does one of the operations in the sample period it
falls in. -/
def BoundaryOrAct (c : Instr) : Prop :=
  c ∈ boundaryCommands ∨ (∃ r, c = .request r) ∨ ∃ (w : Work) (i : w.act.Index), exec c = act (w.act.run i)

theorem acts {c : Instr} (w : Work) (i : w.act.Index) (runs : exec c = act (w.act.run i)) : BoundaryOrAct c :=
  .inr (.inr ⟨w, i, runs⟩)

theorem takes {c : Instr} (runs : exec c = act (takeDecoded c)) : BoundaryOrAct c := acts .take c runs

theorem bounds (n : Nat) {c : Instr} (at_n : boundaryCommands[n]? = some c) : BoundaryOrAct c :=
  .inl (List.mem_of_getElem? at_n)

theorem boundary_or_act : ∀ c : Instr, BoundaryOrAct c
  | .powerOn => bounds 0 rfl
  | .powerLoss => bounds 1 rfl
  | .samplePeriod => bounds 2 rfl
  | .blockBoundary => bounds 3 rfl
  | .wclkOutLatch 0 => bounds 4 rfl
  | .wclkOutLatch 1 => bounds 5 rfl
  | .commitApply => bounds 6 rfl
  | .rateChange => bounds 7 rfl
  | .uplinkConfigEffect => bounds 8 rfl
  | .uplinkLoss => bounds 9 rfl
  | .fallbackDecision => bounds 10 rfl
  | .meterReport => bounds 11 rfl
  | .meterPromotion => bounds 12 rfl
  | .resetBoundary => bounds 13 rfl
  | .request r => .inr (.inl ⟨r, rfl⟩)
  | .upBlockSent => acts .blockSent () rfl
  | .downBlock _ => acts .down _ rfl
  | .badFrame => acts .bad () rfl
  | .storeWriteComplete => acts .complete () rfl
  | .frameStart .. => acts .frameStart (_, _, _) rfl
  | .converterFrame .. => acts .receive (_, _) rfl
  | .frameIncomplete _ => acts .incomplete _ rfl
  | .missingFrame _ => acts .miss _ rfl
  | .noSync _ => acts .noSync _ rfl
  | .holdOffExpiry _ => acts .holdOff _ rfl
  | .commandTimeout _ => acts .timeOut _ rfl
  | .wordclockEdge .. => acts .edge (.wordclock, _, _) rfl
  | .edgeLoss _ => acts .edgeLoss _ rfl
  | .pullInCount => acts .pullIn () rfl
  | .holdoverExpiry => acts .expiry () rfl
  | .hello .. => acts .hello (_, _) rfl
  | .keepalive _ => acts .keepalive _ rfl
  | .position .. | .touch .. | .press .. | .turn .. => acts .message (_, _) rfl
  | .malformedMessage .. => acts .discard (_, _) rfl
  | .messageIncomplete _ => acts .incompleteRun _ rfl
  | .silenceTimerExpiry _ => acts .silence _ rfl
  | .sendIntervalExpiry _ => acts .interval _ rfl
  | .arbiterChoice => acts .choice () rfl
  | .messageFrameEnd => acts .frameEnd () rfl
  | .unknown .. | .xpAdd .. | .xpRemove .. | .xpGain .. | .xpMute .. | .xpRamp .. | .xpRead .. | .patchList ..
  | .patchCommit .. | .patchDiscard .. | .ruleWrite .. | .ruleRead .. | .ruleBlocks .. | .lawWrite .. | .lawRead ..
  | .surfaceSend .. | .surfaceStatus .. | .surfaceConfig .. | .linkConfig .. | .linkRestart .. | .linkPause ..
  | .linkResume .. | .linkStatus .. | .converterCommand .. | .clockCandidates .. | .clockRate .. | .clockStatus ..
  | .wclkOut .. | .meterPoints .. | .meterConfig .. | .meterThresholds .. | .modeSetSetup .. | .modeSetOperate ..
  | .uplinkConfig .. | .deviceReset .. | .deviceInfo .. | .storeWrite .. | .storeStatus .. | .countersRead .. =>
    takes rfl

section Events

variable {P : State → Prop} (keep : ∀ w : Work, w.act.Keeps P)
include keep

theorem drainRequests_keeps : ∀ n s, P s → P (drainRequests n s)
  | 0, _, h => h
  | n + 1, s, h => by
    unfold drainRequests
    split
    · exact h
    · exact drainRequests_keeps n _ (keep .take _ s h)

theorem settleLink_keeps (s : State) (i : Fin 8) (h : P s) : P (settleLink s i) :=
  keep .timeOut i _ (keep .holdOff i _ (keep .noSync i _ (keep .incomplete i _ (keep .miss i s h))))

theorem settleSurface_keeps (s : State) (i : Fin 4) (h : P s) : P (settleSurface s i) := by
  have assembled : P (expireAssembly i s) := by
    unfold expireAssembly
    split
    · exact h
    · exact keep .incompleteRun i s h
  exact keep .interval i _ (keep .silence i _ assembled)

theorem settleClock_keeps (s : State) (h : P s) : P (settleClock s) :=
  keep .expiry () _ (keep .pullIn () _ (foldl_keeps (fun t r k => keep .edgeLoss r t k) _ s h))

theorem settleStore_keeps (s : State) (h : P s) : P (settleStore s) := by
  unfold settleStore
  split
  · exact keep .complete () s h
  · exact h

/-- The end of a sample period keeps the law: it is made of the events that fall due by then. -/
theorem endPeriod_keeps (s : State) (h : P s) : P (endPeriod s) :=
  have linked := foldl_keeps (settleLink_keeps keep) linkNumbers _ (drainRequests_keeps keep _ s h)
  have timed := foldl_keeps (settleSurface_keeps keep) surfaceNumbers _ (settleClock_keeps keep _ linked)
  keep .latch 1 _ (keep .latch 0 _ (settleStore_keeps keep _ timed))

end Events

/-! From the parts of a step to the step: a law that the operations a step is made of keep is kept by every step. -/

/-- A law that every operation of a step keeps: the taking of requests and the events, the boundary, the start of a sample
period, the resets and the power. -/
structure LawKept (parts : List Part) (P : State → Prop) : Prop where
  reads : Reads parts P
  works : ∀ w : Work, w.act.Keeps P
  arrive : ∀ r s, s.boundary.taken = false → P s → P (arriveRequest r s)
  opening : ∀ s, s.boundary.taken = false → P s → P (openBlock s)
  reset : ∀ s, P s → P (resetBoundary s)
  start : ∀ s, P s → P (settle s) → P (startPeriod (settle s))
  powerOn : ∀ s, P s → P (powerOn s)
  powerLoss : ∀ s, P s → P (powerLoss s)

/-- A law that does not read the free values holds after POWER_ON if it holds in the first sample period. -/
theorem powerOn_of_firstPeriod {parts : List Part} {P : State → Prop} (reads : Reads parts P) (s : State)
    (h : P (firstPeriod (coldState s.device.store.cut s.device.completed)))
    (apart : Part.free ∉ parts := by exact nofun) : P (powerOn s) := by
  have kept (t : State) (q : List Instr) (n : Nat) (k : P t) : P { t with pending := q, free := n } :=
    reads (s := t)
      { free := fun m => absurd m apart, gen := fun _ => rfl, boundary := fun _ => rfl, clock := fun _ => rfl,
        links := fun _ => rfl, uplink := fun _ => rfl, engine := fun _ => rfl, surfaces := fun _ => rfl,
        rules := fun _ => rfl, meter := fun _ => rfl, mgmt := fun _ => rfl, device := fun _ => rfl } k
  unfold powerOn
  exact kept _ _ _ h

section Step

variable {parts : List Part} {P : State → Prop} (law : LawKept parts P)
include law

theorem open_keeps {s : State} (inPeriod : s.boundary.taken = false) (h : P s) : P (openBlock (endPeriod s)) :=
  law.opening _ ((congrArg _ ((endPeriod_touches s).boundary nofun)).trans inPeriod) (endPeriod_keeps law.works s h)

theorem takeBoundary_keeps (s : State) (h : P s) : P (takeBoundary s) := by
  unfold takeBoundary
  split
  · next due => exact open_keeps law (of_decide_eq_true due).1 h
  · exact h

theorem closePeriod_keeps (s : State) (h : P s) : P (closePeriod s) := by
  unfold closePeriod
  split
  · exact h
  · next open_ =>
    split
    · exact open_keeps law (Bool.eq_false_iff.mpr open_) h
    · exact endPeriod_keeps law.works s h

/-- The steps of a boundary, one after the other, keep the law. -/
theorem boundarySteps_keeps (s : State) (h : P s) : P (boundarySteps s) :=
  have works := law.works
  law.reset _ (works .promotion () _ (works .report () _ (works .fallback () _ (works .loss () _ (works .config () _
    (works .rate () _ (works .commit () s h)))))))

/-- SAMPLE_PERIOD keeps the law. -/
theorem nextSample_keeps (s : State) (h : P s) : P (nextSample s) :=
  law.works .work () _ (law.start s h (boundarySteps_keeps law _ (closePeriod_keeps law s h)))

theorem entered_keeps {s : State} (h : P s) : P (entered s) := by
  unfold entered
  split
  · exact nextSample_keeps law s h
  · exact h

/-- Every command keeps the law. -/
theorem exec_keeps (c : Instr) {s t : State} (h : P s) (runs : exec c s = .next t) : P t := by
  have works := law.works
  have ran {f : State → State} (kept : ∀ s, P s → P (f s)) (runs : run f s = .next t) : P t := by
    obtain ⟨-, rfl⟩ | ⟨-, rfl⟩ := run_cases runs
    · exact kept s h
    · exact h
  have acted {f : State → State} (kept : P (f (entered s))) (runs : act f s = .next t) : P t := by
    obtain ⟨-, rfl⟩ | ⟨-, rfl⟩ := act_cases runs
    · exact kept
    · exact h
  obtain own | ⟨r, rfl⟩ | ⟨w, i, e⟩ := boundary_or_act c
  · simp only [boundaryCommands, List.mem_cons, List.not_mem_nil, or_false] at own
    obtain rfl | rfl | rfl | rfl | rfl | rfl | rfl | rfl | rfl | rfl | rfl | rfl | rfl | rfl := own
    · exact Host.Outcome.next.inj runs ▸ law.powerOn s h
    · exact ran law.powerLoss runs
    · exact ran (nextSample_keeps law) runs
    · exact ran (takeBoundary_keeps law) runs
    · exact ran (works .latch 0) runs
    · exact ran (works .latch 1) runs
    · exact ran (works .commit ()) runs
    · exact ran (works .rate ()) runs
    · exact ran (works .config ()) runs
    · exact ran (works .loss ()) runs
    · exact ran (works .fallback ()) runs
    · exact ran (works .report ()) runs
    · exact ran (works .promotion ()) runs
    · exact ran law.reset runs
  · exact acted (law.arrive r _ (entered_taken s) (entered_keeps law h)) runs
  · rewrite [e] at runs
    exact acted ((w.act.within (works w)) i _ (entered_keeps law h)) runs

/-- Every step keeps the law. -/
theorem step_keeps {s t : State} (h : P s) (steps : step s = .next t) : P t := by
  unfold step at steps
  split at steps
  · exact Host.Outcome.next.inj steps ▸ h
  · exact exec_keeps law _ (Reads.queue law.reads _ h) steps

end Step

/-! The playback ring and its window (R111 to R113, R116). -/

/-! ### Offsets from the next-play number -/

/-- Two numbers at the same place of the window are one. -/
theorem ringOffset_inj {a b n : Nat} (ha : a < 65536) (hb : b < 65536) (same : ringOffset a n = ringOffset b n) :
    a = b := by
  unfold ringOffset at same
  omega

theorem ringOffset_self (n : Nat) : ringOffset n n = 0 := by
  unfold ringOffset
  omega

/-- A number of the window that is not its first is in the window of the next number. -/
theorem ringOffset_succ {a n : Nat} (ha : a < 65536) (hn : n < 65536) (within : ringOffset a n < 4) (other : a ≠ n) :
    ringOffset a (wrapSucc 65536 n) < 4 := by
  unfold ringOffset wrapSucc at *
  omega

/-! ### The ring's law -/

/-- The ring holds no two blocks of one number and only numbers of the window. -/
structure RingWithin (ring : List RingBlock) (next : Nat) : Prop where
  distinct : (ring.map (·.number)).Nodup
  window : ∀ b ∈ ring, b.number < 65536 ∧ ringOffset b.number next < 4

theorem RingWithin.nil (next : Nat) : RingWithin [] next := ⟨List.nodup_nil, by simp⟩

/-- A window of four numbers, each held once, is at most four blocks. -/
theorem RingWithin.length_le {ring : List RingBlock} {next : Nat} (h : RingWithin ring next) : ring.length ≤ 4 := by
  have offsets : (ring.map fun b => ringOffset b.number next).Nodup := by
    rewrite [show (fun b : RingBlock => ringOffset b.number next) = (ringOffset · next) ∘ (·.number) from rfl,
      ← List.map_map]
    refine List.Nodup.map_on ?_ h.distinct
    intro a ha b hb same
    obtain ⟨x, hx, rfl⟩ := List.mem_map.mp ha
    obtain ⟨y, hy, rfl⟩ := List.mem_map.mp hb
    exact ringOffset_inj (h.window x hx).1 (h.window y hy).1 same
  have within : (ring.map fun b => ringOffset b.number next) ⊆ List.range 4 := by
    intro o ho
    obtain ⟨b, hb, rfl⟩ := List.mem_map.mp ho
    exact List.mem_range.mpr (h.window b hb).2
  simpa using (offsets.subperm within).length_le

/-- A block of a number that is not held joins the ring where its number lies in the window. -/
theorem RingWithin.store {ring : List RingBlock} {next : Nat} (h : RingWithin ring next) {b : RingBlock}
    (bounded : b.number < 65536) (within : ringOffset b.number next < 4)
    (apart : ring.any (fun r => decide (r.number = b.number)) = false) : RingWithin (ring ++ [b]) next where
  distinct := by
    rewrite [List.map_append, List.nodup_append]
    refine ⟨h.distinct, by simp, ?_⟩
    rintro a ha c hc rfl
    obtain ⟨r, hr, held⟩ := List.mem_map.mp ha
    rewrite [List.any_eq_false] at apart
    exact apart r hr (by simpa using held.trans (by simpa using hc))
  window r hr := by
    obtain hr | hr := List.mem_append.mp hr
    · exact h.window r hr
    · rewrite [List.mem_singleton.mp hr]; exact ⟨bounded, within⟩

/-- Once the due number is no longer held the window moves on. -/
theorem RingWithin.advance {ring kept : List RingBlock} {next : Nat} (h : RingWithin ring next) (bounded : next < 65536)
    (sub : kept.Sublist ring) (gone : ∀ b ∈ kept, b.number ≠ next) : RingWithin kept (wrapSucc 65536 next) where
  distinct := h.distinct.sublist (sub.map _)
  window b hb := by
    obtain ⟨small, within⟩ := h.window b (sub.subset hb)
    exact ⟨small, ringOffset_succ small bounded within (gone b hb)⟩

/-- The laws of the ring, its count left to follow from them. -/
structure RingLaw (s : State) : Prop where
  next : s.uplink.nextPlay = wrapSucc 65536 s.gen.blockNumber
  within : RingWithin s.uplink.ring s.uplink.nextPlay

theorem ringLaw_iff (s : State) : RingSound s ↔ RingLaw s :=
  ⟨fun h => ⟨h.next, h.distinct, h.window⟩,
    fun h => ⟨h.next, h.within.length_le, h.within.distinct, h.within.window⟩⟩

theorem RingLaw.congr {s t : State} (h : RingLaw s) (ring : t.uplink.ring = s.uplink.ring)
    (next : t.uplink.nextPlay = s.uplink.nextPlay) (block : t.gen.blockNumber = s.gen.blockNumber) : RingLaw t where
  next := by rewrite [next, block]; exact h.next
  within := by rewrite [ring, next]; exact h.within

theorem RingLaw.emptied {s t : State} (h : RingLaw s) (ring : t.uplink.ring = [])
    (next : t.uplink.nextPlay = s.uplink.nextPlay) (block : t.gen.blockNumber = s.gen.blockNumber) : RingLaw t where
  next := by rewrite [next, block]; exact h.next
  within := by rewrite [ring]; exact .nil _

theorem RingLaw.nextPlay_lt {s : State} (h : RingLaw s) : s.uplink.nextPlay < 65536 := by
  rewrite [h.next]; exact Nat.mod_lt _ (by decide)

theorem ring_reads : Reads [.gen, .uplink] RingLaw := fun agree h =>
  h.congr (by rw [agree.uplink (by simp)]) (by rw [agree.uplink (by simp)]) (by rw [agree.gen (by simp)])

/-! ### What the ring's operations do to it -/

theorem startAlarms_touches (s : State) : Touches [.mgmt] s (startAlarms s) := by
  have posted (t : State) (i : Fin 8) : Touches [.mgmt] t (if (t.links[i]'i.2).state = .align then postLinkAlarm i t else t) := by
    split
    · exact postLinkAlarm_touches i t
    · exact .refl _ t
  have stored : Touches [.mgmt] s (match s.device.store with
      | .incomplete => postStoreAlarm s
      | .empty => s
      | .writing _ _ _ => s
      | .valid _ => s) := by
    cases s.device.store
    case incomplete => exact postAlarm_touches _ s
    all_goals exact .refl _ s
  exact stored.trans (Touches.foldl posted _ _)

theorem hearFrame_ring (s : State) :
    (hearFrame s).uplink.ring = s.uplink.ring ∧ (hearFrame s).uplink.nextPlay = s.uplink.nextPlay := by
  obtain ⟨-, e⟩ | ⟨-, e⟩ := hearFrame_cases s <;> rewrite [e] <;> exact ⟨rfl, rfl⟩

theorem ring_hearFrame {s : State} (h : RingLaw s) : RingLaw (hearFrame s) :=
  h.congr (hearFrame_ring s).1 (hearFrame_ring s).2 (by rw [(hearFrame_touches s).gen nofun])

theorem file_ring {b : DownBlock} {u : UplinkRx} (h : RingWithin u.ring u.nextPlay) :
    RingWithin (u.file b).ring (u.file b).nextPlay ∧ (u.file b).nextPlay = u.nextPlay := by
  unfold UplinkRx.file
  dsimp only
  split
  · next within =>
    split
    · exact ⟨h, rfl⟩
    · next apart =>
      exact ⟨h.store (b := ⟨b.number % 65536, _⟩) (Nat.mod_lt _ (by decide)) within (by simpa using apart), rfl⟩
  · split <;> exact ⟨h, rfl⟩

theorem ring_takeDownBlock (b : DownBlock) {s : State} (h : RingLaw s) : RingLaw (takeDownBlock b s) := by
  have heard := ring_hearFrame h
  unfold takeDownBlock
  dsimp only
  split
  · obtain ⟨within, next⟩ := file_ring (b := b) heard.within
    exact ⟨next.trans heard.next, within⟩
  · exact heard.congr rfl rfl rfl

/-- Play time moves the window on by one number, which the ring then no longer holds. -/
theorem playTime_ring (flushing : Bool) {s : State} (h : RingWithin s.uplink.ring s.uplink.nextPlay)
    (bounded : s.uplink.nextPlay < 65536) :
    (playTime flushing s).uplink.nextPlay = wrapSucc 65536 s.uplink.nextPlay ∧
      RingWithin (playTime flushing s).uplink.ring (playTime flushing s).uplink.nextPlay := by
  unfold playTime
  split
  · exact ⟨rfl, .nil _⟩
  · split
    · next b found =>
      have due : b.number = s.uplink.nextPlay := of_decide_eq_true (List.find?_some found :)
      refine ⟨rfl, h.advance bounded List.filter_sublist ?_⟩
      intro r hr
      rewrite [← due]
      exact of_decide_eq_true (List.mem_filter.mp hr).2
    · next missing =>
      have gone : ∀ r ∈ s.uplink.ring, r.number ≠ s.uplink.nextPlay := by
        intro r hr held
        exact List.find?_eq_none.mp missing r hr (decide_eq_true held)
      dsimp only
      split <;> exact ⟨rfl, h.advance bounded (List.Sublist.refl _) gone⟩

theorem ring_openBlock {s : State} (h : RingLaw s) : RingLaw (openBlock s) := by
  unfold openBlock
  dsimp only
  obtain ⟨next, within⟩ := playTime_ring (openBoundary s).flushes (s := { s with
      gen := { s.gen with
        blockNumber := wrapSucc 65536 s.gen.blockNumber
        blockStamp := wrapSucc 4294967296 s.gen.sampleCounter }
      boundary := openBoundary s
      clock := { s.clock with pendingRate := none }
      uplink := { s.uplink with pendingConfig := none, fallbackArmed := false }
      meter := { s.meter with count := bump 255 s.meter.count }
      mgmt := s.mgmt.blockDue (formUpBlock s) }) h.within h.nextPlay_lt
  refine ⟨next.trans ?_, within⟩
  rewrite [(countLoss_touches _).gen nofun, (playTime_touches _ _).gen nofun]
  exact congrArg _ h.next

theorem ring_changeRate {s : State} (h : RingLaw s) : RingLaw (changeRate s) := by
  have aligned (t : State) (i : Fin 8) : Touches [.links, .mgmt] t (realign i t) := realign_touches i t
  unfold changeRate
  split
  · exact h
  · dsimp only
    refine ring_reads ((Touches.foldl aligned linkNumbers _).agree nofun) ?_
    split
    · exact h.emptied rfl rfl rfl
    · exact ring_reads ((postClockAlarm_touches _).agree nofun) (h.emptied rfl rfl rfl)

theorem ring_effectConfig {s : State} (h : RingLaw s) : RingLaw (effectConfig s) := by
  unfold effectConfig
  split
  · exact h
  · exact h.emptied rfl rfl rfl

theorem ring_resetBoundary {s : State} (h : RingLaw s) : RingLaw (resetBoundary s) := by
  unfold resetBoundary
  split
  · exact h.emptied rfl rfl rfl
  · exact h

theorem ownUplinkConfig_ring (body) (s : State) (h : RingLaw s) : RingLaw (ownUplinkConfig body s).1 := by
  unfold ownUplinkConfig
  repeat' split
  all_goals exact h.congr rfl rfl rfl

theorem clearGroup_ring (g : Group) (s : State) (h : RingLaw s) : RingLaw (clearGroup s g) := by
  cases g <;> exact h.congr rfl rfl rfl

theorem ring_takings : ∀ w : Taking, w.act.Keeps RingLaw :=
  Taking.keeps ring_reads [.hear, .uplinkConfig, .clear] rfl
    ⟨fun _ _ => ring_hearFrame, ownUplinkConfig_ring, clearGroup_ring, trivial⟩

theorem arriveRequest_ring (r : RequestFrame) (s : State) (h : RingLaw s) : RingLaw (arriveRequest r s) := by
  unfold arriveRequest
  dsimp only
  split <;> exact (ring_hearFrame h).congr rfl rfl rfl

theorem loseUplink_ring (s : State) (h : RingLaw s) : RingLaw (loseUplink s) := by
  unfold loseUplink
  split <;> exact h.congr rfl rfl rfl

theorem decideFallback_ring (s : State) (h : RingLaw s) : RingLaw (decideFallback s) := by
  unfold decideFallback
  repeat' split
  all_goals exact h.congr rfl rfl rfl

theorem ring_works : ∀ w : Work, w.act.Keeps RingLaw :=
  Work.keeps ring_reads [.down, .take, .bad, .rate, .config, .loss, .fallback] rfl
    ⟨fun b _ => ring_takeDownBlock b, takeDecoded_keeps ring_takings, fun _ _ h => h.congr rfl rfl rfl,
      fun _ _ => ring_changeRate, fun _ _ => ring_effectConfig, fun _ => loseUplink_ring, fun _ => decideFallback_ring,
      trivial⟩

theorem ring_law : LawKept [.gen, .uplink] RingLaw where
  reads := ring_reads
  works := ring_works
  arrive r s _ := arriveRequest_ring r s
  opening _ _ h := ring_openBlock h
  reset _ h := ring_resetBoundary h
  start s _ settled := by
    rewrite [startPeriod_eq]
    exact settled.congr rfl rfl rfl
  powerOn s _ := by
    refine powerOn_of_firstPeriod ring_reads s ?_
    unfold firstPeriod
    refine ring_reads ((periodWork_touches _).agree nofun) ?_
    have started (t : State) : (startAlarms t).uplink = t.uplink := (startAlarms_touches t).uplink nofun
    have cold : (coldState s.device.store.cut s.device.completed).uplink = UplinkRx.reset := rfl
    obtain ⟨next, within⟩ := playTime_ring false
      (s := startAlarms (coldState s.device.store.cut s.device.completed))
      (by rewrite [started, cold]; exact .nil _) (by rewrite [started, cold]; decide)
    refine ⟨next.trans ?_, within⟩
    rewrite [(playTime_touches _ _).gen nofun, (startAlarms_touches _).gen nofun, started, cold]
    rfl
  powerLoss _ _ := ⟨rfl, .nil _⟩

set_option Elab.async false in
/-- Settles O6: the numbers of the ring stay distinct and in the window, and so it holds at most 4 blocks. -/
theorem stepKeepsRingSound : Obligations.StepKeepsRingSound := by
  intro s t h steps
  exact (ringLaw_iff t).mpr (step_keeps ring_law ((ringLaw_iff s).mp h) steps)

/-! Every step goes on (00_scope.md; R170, log entries 2, 7 and 11). -/

/-- `t` has the queue and the power of `s`. -/
def KeepsQueue (s t : State) : Prop := t.pending = s.pending ∧ t.powered = s.powered

theorem KeepsQueue.trans {s t u : State} (h : KeepsQueue s t) (k : KeepsQueue t u) : KeepsQueue s u :=
  ⟨k.1.trans h.1, k.2.trans h.2⟩

theorem Touches.keepsQueue {parts : List Part} {s t : State} (h : Touches parts s t) : KeepsQueue s t :=
  ⟨h.pending, h.powered⟩

theorem Work.keepsQueue (w : Work) (i : w.act.Index) (s : State) : KeepsQueue s (w.act.run i s) :=
  (w.act.touches i s).keepsQueue

theorem closePeriod_keepsQueue (s : State) : KeepsQueue s (closePeriod s) := by
  have ended := (endPeriod_touches s).keepsQueue
  rw [closePeriod]
  split_ifs
  · exact ⟨rfl, rfl⟩
  · exact ended.trans (openBlock_touches _).keepsQueue
  · exact ended

theorem takeBoundary_keepsQueue (s : State) : KeepsQueue s (takeBoundary s) := by
  rw [takeBoundary]
  split_ifs
  · exact (endPeriod_touches s).keepsQueue.trans (openBlock_touches _).keepsQueue
  · exact ⟨rfl, rfl⟩

theorem resetClock_keepsQueue (autostart : Bool) (s : State) : KeepsQueue s (resetClock autostart s) := by
  have cleared : KeepsQueue s (s.onClock fun c => { c with pendingRate := none, counters := ClockCounters.zero }) :=
    ⟨rfl, rfl⟩
  refine foldl_keeps (Q := KeepsQueue s) (fun t i kept => ?_) linkNumbers _ cleared
  split_ifs
  · exact kept.trans (disqualify_touches _ t).keepsQueue
  · exact kept

theorem resetBoundary_keepsQueue (s : State) : KeepsQueue s (resetBoundary s) := by
  rw [resetBoundary]
  split_ifs
  · exact resetClock_keepsQueue _ s
  · exact ⟨rfl, rfl⟩

theorem nextSample_keepsQueue (s : State) : KeepsQueue s (nextSample s) :=
  have bounded (w : Work) (i : w.act.Index) {t : State} (h : KeepsQueue s t) : KeepsQueue s (w.act.run i t) :=
    h.trans (w.keepsQueue i t)
  have stepped := bounded .promotion () (bounded .report () (bounded .fallback () (bounded .loss () (bounded .config ()
    (bounded .rate () (bounded .commit () (closePeriod_keepsQueue s)))))))
  bounded .work () ((stepped.trans (resetBoundary_keepsQueue _)).trans (startPeriod_touches _).keepsQueue)

theorem entered_keepsQueue (s : State) : KeepsQueue s (entered s) := by
  rw [entered]
  split_ifs
  · exact nextSample_keepsQueue s
  · exact ⟨rfl, rfl⟩

/-- A command answers a next state and leaves the commands behind it. -/
def GoesOn (c : Instr) : Prop := ∀ s, ∃ t, exec c s = .next t ∧ t.pending = s.pending

theorem goesOn_of_run {c : Instr} {f : State → State} (runs : exec c = run f) (kept : ∀ s, (f s).pending = s.pending) :
    GoesOn c := fun s => by
  refine ⟨_, congrFun runs s, ?_⟩
  split_ifs
  · exact kept s
  · rfl

theorem goesOn_of_work {c : Instr} (w : Work) (i : w.act.Index) (runs : exec c = run (w.act.run i)) : GoesOn c :=
  goesOn_of_run runs fun s => (w.keepsQueue i s).1

theorem goesOn_of_act {c : Instr} {f : State → State} (runs : exec c = act f) (kept : ∀ s, KeepsQueue s (f s)) :
    GoesOn c :=
  goesOn_of_run runs fun s => ((entered_keepsQueue s).trans (kept _)).1

theorem goesOn (c : Instr) : GoesOn c := by
  obtain own | ⟨r, rfl⟩ | ⟨w, i, runs⟩ := boundary_or_act c
  · simp only [boundaryCommands, List.mem_cons, List.not_mem_nil, or_false] at own
    obtain rfl | rfl | rfl | rfl | rfl | rfl | rfl | rfl | rfl | rfl | rfl | rfl | rfl | rfl := own
    · exact fun s => ⟨powerOn s, rfl, by rw [powerOn]⟩
    · exact goesOn_of_run (f := powerLoss) rfl fun _ => by rw [powerLoss]
    · exact goesOn_of_run (f := nextSample) rfl fun s => (nextSample_keepsQueue s).1
    · exact goesOn_of_run (f := takeBoundary) rfl fun s => (takeBoundary_keepsQueue s).1
    · exact goesOn_of_run (f := latchOutput 0) rfl fun s => (latchOutput_touches 0 s).pending
    · exact goesOn_of_run (f := latchOutput 1) rfl fun s => (latchOutput_touches 1 s).pending
    · exact goesOn_of_run (f := applyCommit) rfl fun s => (applyCommit_touches s).pending
    · exact goesOn_of_run (f := changeRate) rfl fun s => (changeRate_touches s).pending
    · exact goesOn_of_run (f := effectConfig) rfl fun s => (effectConfig_touches s).pending
    · exact goesOn_of_run (f := loseUplink) rfl fun s => (loseUplink_touches s).pending
    · exact goesOn_of_run (f := decideFallback) rfl fun s => (decideFallback_touches s).pending
    · exact goesOn_of_run (f := reportMeters) rfl fun s => (reportMeters_touches s).pending
    · exact goesOn_of_run (f := promoteReport) rfl fun s => (promoteReport_touches s).pending
    · exact goesOn_of_run (f := resetBoundary) rfl fun s => (resetBoundary_keepsQueue s).1
  · exact goesOn_of_act (f := arriveRequest r) rfl fun s => (arriveRequest_touches r s).keepsQueue
  · exact goesOn_of_act runs (w.keepsQueue i)

/-- What a command is: POWER_ON, an operation on the state as it stands, or one in a sample period. -/
theorem exec_shape (c : Instr) : c = .powerOn ∨ (c ∈ boundaryCommands ∧ ∃ f, exec c = run f) ∨ ∃ f, exec c = act f := by
  obtain own | ⟨r, rfl⟩ | ⟨w, i, runs⟩ := boundary_or_act c
  · by_cases on : c = .powerOn
    · exact .inl on
    · refine .inr (.inl ⟨own, ?_⟩)
      simp only [boundaryCommands, List.mem_cons, List.not_mem_nil, or_false, on, false_or] at own
      obtain rfl | rfl | rfl | rfl | rfl | rfl | rfl | rfl | rfl | rfl | rfl | rfl | rfl := own <;> exact ⟨_, rfl⟩
  · exact .inr (.inr ⟨_, rfl⟩)
  · exact .inr (.inr ⟨_, runs⟩)

set_option Elab.async false in
/-- Settles O2: each command is POWER_ON, runs on the state as it stands, or acts in the sample period it falls in. -/
theorem everyStepGoesOn : Obligations.EveryStepGoesOn := by
  refine ⟨fun s => ⟨?_, fun empty => by rw [step, empty]⟩, fun c s off notOn => ?_, fun c s powered taken other => ?_⟩
  · cases queue : s.pending with
    | nil => exact ⟨s, by rw [step, queue], queue⟩
    | cons c rest =>
      obtain ⟨t, runs, kept⟩ := goesOn c { s with pending := rest }
      exact ⟨t, by rw [step, queue]; exact runs, kept⟩
  · obtain on | ⟨-, f, runs⟩ | ⟨f, runs⟩ := exec_shape c
    · exact absurd on notOn
    · exact (congrFun runs s).trans (run_unpowered f off)
    · exact (congrFun runs s).trans (act_unpowered f off)
  · have within : InPeriod (nextSample s) := ⟨(nextSample_keepsQueue s).2.trans powered, nextSample_taken s⟩
    refine ⟨nextSample s, run_powered _ powered, within, ?_⟩
    obtain rfl | ⟨own, -⟩ | ⟨f, runs⟩ := exec_shape c
    · exact absurd (List.mem_cons_self ..) other
    · exact absurd own other
    · rw [runs, act_inPeriod f within, act, run_powered _ powered, entered, if_pos taken]

/-! The tools of the statements below: a field that cannot be read, an entry of a vector that is modified, and a command
that runs where it acts. -/

section Reading

variable {α β : Type} {o : Option α} {f : α → Option β}

theorem bind_unread (h : o = none) : (o >>= f) = none := h ▸ rfl

theorem bind_unread_rest (h : ∀ x, f x = none) : (o >>= f) = none :=
  match o with
  | none => rfl
  | some x => h x

end Reading

section Entries

variable {α : Type} {n : Nat} {v : Vector α n} {i : Fin n} {f : α → α} {x : α}

theorem modifyEntry_eq (h : f (v[i.1]'i.2) = x) : modifyEntry v i f = v.set i.1 x i.2 := congrArg (v.set i.1 · i.2) h

theorem modifyEntry_id (h : f (v[i.1]'i.2) = v[i.1]'i.2) : modifyEntry v i f = v :=
  (modifyEntry_eq h).trans (Vector.set_getElem_self ..)

end Entries

section Running

variable {f : State → State} {s t : State}

theorem run_eq (powered : s.powered = true) (h : f s = t) : run f s = .next t :=
  (run_powered f powered).trans (congrArg _ h)

theorem act_eq (within : InPeriod s) (h : f s = t) : act f s = .next t :=
  (act_inPeriod f within).trans (congrArg _ h)

end Running

theorem receives_iff (x : LinkState) : x.receives = true ↔ x = .align ∨ x = .active ∨ x = .paused := by
  cases x <;> decide

/-- Replies may be queued before the alarms as well as behind them (R172, R174). -/
theorem afterAlarms_replies (alarms : List Alarm) (new : List Reply) (m : Management) :
    { afterAlarms alarms m with replies := (afterAlarms alarms m).replies ++ new } =
      afterAlarms alarms { m with replies := m.replies ++ new } := by
  induction alarms generalizing m with
  | nil => rfl
  | cons x rest ih => exact ih (afterAlarms [x] m)

theorem pushReply_alarmed {tag kind : Byte} {a : Answer} {alarms : List Alarm} {m : Management} {s : State}
    (h : s.mgmt = afterAlarms alarms m) : pushReply tag kind a s =
      { s with mgmt := afterAlarms alarms { m with replies := m.replies ++ [⟨tag, kind, a⟩] } } := by
  rw [← afterAlarms_replies, ← h]
  rfl

/-! SAMPLE_PERIOD by the state in which what has to come about by the end of the period before has come about (R7, R44). -/

theorem samplePeriod_next {s w : State} (powered : s.powered = true) (settled : settle s = w) :
    exec .samplePeriod s = .next (periodWork (startPeriod w)) := run_eq powered (nextSample_of settled)

theorem stepped_eq (s : State) : stepRamps (startLinks s) =
    { s with links := (startLinks s).links, engine := { s.engine with table := s.engine.table.map rampStep } } := by
  rw [startLinks_eq]
  rfl

/-- The state before the mix of the sample period that starts after `s`. -/
def premix (s : State) : State := stepRamps (startLinks (startPeriod s))

theorem premix_eq (s : State) : premix s =
    { startPeriod s with
      links := (startLinks (startPeriod s)).links
      engine := { s.engine with table := s.engine.table.map rampStep } } :=
  (stepped_eq _).trans (by rw [startPeriod_eq])

/-- What the sample period that starts after `s` leaves of the state before its mix. -/
theorem work_parts (s : State) : let t := periodWork (startPeriod s)
    t.gen = (premix s).gen ∧ t.links = (premix s).links ∧ t.uplink = (premix s).uplink ∧
      t.engine = (mixPeriod (premix s)).engine ∧ t.meter = (meterPeriod (premix s) (mixPeriod (premix s))).meter ∧
      t.mgmt = (gatherRow (mixPeriod (premix s))).mgmt := by
  dsimp only
  rw [periodWork_eq]
  refine ⟨?_, ?_, ?_, rfl, rfl, rfl⟩ <;> rw [premix_eq]

/-- What the state before the mix has of `s`. -/
theorem premix_parts (s : State) : (premix s).engine = { s.engine with table := s.engine.table.map rampStep } ∧
    (premix s).meter = s.meter ∧ (premix s).mgmt = s.mgmt := by
  rw [premix_eq, startPeriod_eq]
  exact ⟨rfl, rfl, rfl⟩

theorem work_table (s : State) : (periodWork (startPeriod s)).engine.table = s.engine.table.map rampStep := by
  obtain ⟨-, -, -, engine, -⟩ := work_parts s
  rw [engine]
  exact congrArg Engine.table (premix_parts s).1

/-! The links one after the other, by ascending number: where what each does changes that link and the transmitter alone,
every link is changed once and their alarms and replies follow one another (04_converter_links.md, R84). -/

theorem flatMap_filter {α β : Type} (p : α → Bool) (g : α → List β) (l : List α) :
    (l.flatMap fun x => if p x = true then g x else []) = (l.filter p).flatMap g := by
  induction l with
  | nil => rfl
  | cons x rest ih =>
    rw [List.flatMap_cons, ih, List.filter_cons]
    cases p x <;> rfl

/-- Alarms and replies queued behind what the transmitter holds. -/
def queued (alarms : List Alarm) (replies : List Reply) (m : Management) : Management :=
  afterAlarms alarms { m with replies := m.replies ++ replies }

theorem queued_nil (m : Management) : queued [] [] m = m :=
  congrArg (fun old => { m with replies := old }) (List.append_nil _)

theorem queued_after (xs ys : List Alarm) (new : List Reply) (m : Management) :
    queued ys new (afterAlarms xs m) = queued (xs ++ ys) new m := by
  rw [queued, queued, afterAlarms_append]
  exact congrArg (afterAlarms ys) (afterAlarms_replies xs new m)

theorem queued_queued (xs ys : List Alarm) (old new : List Reply) (m : Management) :
    queued ys new (queued xs old m) = queued (xs ++ ys) (old ++ new) m :=
  (queued_after ..).trans (congrArg (fun l => afterAlarms (xs ++ ys) { m with replies := l }) (List.append_assoc ..))

section Sweep

variable {f : Fin 8 → State → State} {moved : Link → Link} {alarms : Fin 8 → Link → List Alarm}
  {replies : Link → List Reply} {s : State}

/-- `s` with other links and another transmitter. -/
@[reducible] def State.withLinks (L : Vector Link 8) (m : Management) (s : State) : State := { s with links := L, mgmt := m }

/-- From `s`, whatever its links and its transmitter hold, `f` takes a link to `moved` of it and queues its alarms and
replies. -/
def Sweeps (f : Fin 8 → State → State) (moved : Link → Link) (alarms : Fin 8 → Link → List Alarm)
    (replies : Link → List Reply) (s : State) : Prop :=
  ∀ i L m, f i (s.withLinks L m) =
    s.withLinks (modifyEntry L i moved) (queued (alarms i (L[i.1]'i.2)) (replies (L[i.1]'i.2)) m)

theorem sweep_links (sweeps : Sweeps f moved alarms replies s) : ∀ (l : List (Fin 8)), l.Nodup → ∀ L m,
    l.foldl (fun t i => f i t) (s.withLinks L m) =
      s.withLinks (l.foldl (fun t i => t.onLink i moved) (s.withLinks L s.mgmt)).links
        (queued (l.flatMap fun i => alarms i (L[i.1]'i.2)) (l.flatMap fun i => replies (L[i.1]'i.2)) m)
  | [], _, _, m => congrArg (s.withLinks _) (queued_nil m).symm
  | i :: rest, distinct, L, m => by
    obtain ⟨absent, distinct⟩ := List.nodup_cons.mp distinct
    have same {β : Type} (g : Fin 8 → Link → List β) :
        (rest.flatMap fun j => g j ((modifyEntry L i moved)[j.1]'j.2)) = rest.flatMap fun j => g j (L[j.1]'j.2) :=
      List.flatMap_congr fun j hj => congrArg (g j) (modifyEntry_other _ _ _ _ fun e => absent (e ▸ hj))
    rw [List.foldl_cons, sweeps, sweep_links sweeps rest distinct, same, same (fun _ => replies), queued_queued]
    rfl

theorem sweep_all (sweeps : Sweeps f moved alarms replies s) :
    linkNumbers.foldl (fun t i => f i t) s = s.withLinks (s.links.map moved)
      (queued (linkNumbers.flatMap fun i => alarms i (s.links[i.1]'i.2))
        (linkNumbers.flatMap fun i => replies (s.links[i.1]'i.2)) s.mgmt) := by
  refine (sweep_links sweeps linkNumbers linkNumbers_nodup s.links s.mgmt).trans (congrArg (s.withLinks · _) ?_)
  refine Vector.ext fun j hj => ?_
  rw [Vector.getElem_map]
  exact (foldl_onLink_mem (fun _ => moved) ⟨j, hj⟩ _ linkNumbers_nodup s).trans (if_pos (mem_linkNumbers _))

/-- Where `f` acts on the links that `moves` tells, and each of them posts one alarm. -/
theorem sweep_moving {moves : Link → Bool} {alarm : Fin 8 → Link → Alarm}
    (stays : ∀ i L m, moves (L[i.1]'i.2) = false → f i (s.withLinks L m) = s.withLinks L m)
    (unmoved : ∀ l, moves l = false → moved l = l)
    (goes : ∀ i L m, moves (L[i.1]'i.2) = true → f i (s.withLinks L m) =
      s.withLinks (modifyEntry L i moved) (queued [alarm i (L[i.1]'i.2)] (replies (L[i.1]'i.2)) m)) :
    let moving := linkNumbers.filter fun i => moves (s.links[i.1]'i.2)
    linkNumbers.foldl (fun t i => f i t) s = s.withLinks (s.links.map moved)
      (queued (moving.map fun i => alarm i (s.links[i.1]'i.2)) (moving.flatMap fun i => replies (s.links[i.1]'i.2))
        s.mgmt) := by
  have sweeps : Sweeps f moved (fun i l => if moves l = true then [alarm i l] else [])
      (fun l => if moves l = true then replies l else []) s := fun i L m => by
    dsimp only
    cases h : moves (L[i.1]'i.2) with
    | false => exact (stays i L m h).trans (by rw [modifyEntry_id (unmoved _ h)]; exact congrArg (s.withLinks L) (queued_nil m).symm)
    | true => exact goes i L m h
  intro moving
  rw [sweep_all sweeps, flatMap_filter, flatMap_filter, List.map_eq_flatMap]

end Sweep

/-! ### WCLK_OUT and its latch (R103, R104) -/

theorem readWclk_fields {i : Fin 2} {enabled inverted : Bool} {divisor : Nat} (low : 1 ≤ divisor) (high : divisor ≤ 256) :
    readWclk ⟨i.val, enabled.toNat, divisor, inverted.toNat⟩ = some (i, ⟨enabled, divisor, inverted⟩) := by
  rw [readWclk, yesNoOf_toNat, within_inside low high, yesNoOf_toNat]
  exact dif_pos i.isLt

theorem readWclk_outside {b : WclkOutBody} :
    2 ≤ b.output ∨ 2 ≤ b.enable ∨ b.divisor = 0 ∨ 256 < b.divisor ∨ 2 ≤ b.polarity → readWclk b = none
  | .inl h => bind_unread_rest fun _ => bind_unread_rest fun _ => bind_unread_rest fun _ => dif_neg (Nat.not_lt.mpr h)
  | .inr (.inl h) => bind_unread (yesNoOf_large h)
  | .inr (.inr (.inl h)) =>
    bind_unread_rest fun _ => bind_unread (within_outside (.inl (Nat.lt_one_iff.mpr h)))
  | .inr (.inr (.inr (.inl h))) => bind_unread_rest fun _ => bind_unread (within_outside (.inr h))
  | .inr (.inr (.inr (.inr h))) => bind_unread_rest fun _ => bind_unread_rest fun _ => bind_unread (yesNoOf_large h)

theorem ownWclkOut_range {b : WclkOutBody} (s : State) (unread : readWclk b = none) :
    ownWclkOut (some b) s = (s, Answer.range) := by
  rw [ownWclkOut, Option.bind_some, unread]

theorem ownWclkOut_sets {b : WclkOutBody} {i : Fin 2} {setting : WclkSetting} (s : State)
    (read : readWclk b = some (i, setting)) : ownWclkOut (some b) s = (s.onClock fun c =>
      { c with outputs := modifyEntry c.outputs i fun o => { o with waiting := some setting } }, Answer.ok) := by
  rw [ownWclkOut, Option.bind_some, read]

section Latch

variable {o : WclkOutput}

theorem WclkOutput.latch_due {setting : WclkSetting} (waits : o.waiting = some setting)
    (due : o.active.enabled = false ∨ o.position = some (o.active.divisor - 1)) :
    (if o.latchDue then o.latch else o) = ⟨setting, none, none⟩ := by
  simp [WclkOutput.latchDue, WclkOutput.latch, waits, due]

theorem WclkOutput.latch_early
    (h : o.waiting = none ∨ o.active.enabled = true ∧ o.position ≠ some (o.active.divisor - 1)) :
    (if o.latchDue then o.latch else o) = o := by
  obtain unset | ⟨enabled, early⟩ := h
  · simp [WclkOutput.latchDue, unset]
  · simp [WclkOutput.latchDue, enabled, early]

end Latch

set_option Elab.async false in
/-- Settles O42: the request by the ranges of its fields, the latch by whether a setting waits and is due. -/
theorem wordClockOutputs : Obligations.WordClockOutputs := by
  refine ⟨fun tag i enabled divisor inverted rest s low high => ?set,
    fun tag b rest s h outside => act_owned h (ownWclkOut_range _ (readWclk_outside outside)), fun i s powered => ?latch⟩
  case set =>
    intro c h
    exact act_owned h (ownWclkOut_sets _ (readWclk_fields low high))
  case latch =>
    have leaves {outputs} (h : _ = outputs) : exec (.wclkOutLatch i) s = .next _ :=
      run_eq powered (congrArg (fun outputs => { s with clock := { s.clock with outputs := outputs } }) h)
    exact ⟨fun setting waits due => leaves (modifyEntry_eq (WclkOutput.latch_due waits due)),
      fun h => leaves (modifyEntry_id (WclkOutput.latch_early h))⟩

/-! The block configuration (06_uplink_blocks_and_the_playback_ring.md, R115, R116). -/

theorem configInRange_iff {mult : Mult} {b : UplinkConfigBody} : configInRange mult b = true ↔
    IsBlockSize b.blockSize ∧ 1 ≤ b.records ∧ b.records ≤ maxChannels mult ∧ 1 ≤ b.playback ∧
      b.playback ≤ maxChannels mult := by
  simp only [configInRange, IsBlockSize, decide_eq_true_eq]

theorem nextRate_eq (s : State) : nextRate s = match s.clock.pendingRate with
    | some r => r
    | none => s.gen.rate := by
  unfold nextRate
  cases s.clock.pendingRate <;> rfl

section UplinkConfig

variable {b : UplinkConfigBody} {s : State}

theorem ownUplinkConfig_operate (operate : s.device.mode = .operate) :
    ownUplinkConfig (some b) s = (s, Answer.of .wrongMode) := if_pos operate

variable (setup : s.device.mode = .setup)
include setup

theorem ownUplinkConfig_setup :
    ownUplinkConfig (some b) s = if configInRange (nextRate s).mult b then
      (s.onUplink fun u => { u with pendingConfig := some ⟨b.blockSize, b.records, b.playback⟩ }, Answer.ok)
    else (s, Answer.range) := if_neg (setup ▸ nofun)

theorem ownUplinkConfig_pends (inRange : configInRange (nextRate s).mult b = true) :
    ownUplinkConfig (some b) s =
      (s.onUplink fun u => { u with pendingConfig := some ⟨b.blockSize, b.records, b.playback⟩ }, Answer.ok) :=
  (ownUplinkConfig_setup setup).trans (if_pos inRange)

theorem ownUplinkConfig_range (outside : ¬ configInRange (nextRate s).mult b = true) :
    ownUplinkConfig (some b) s = (s, Answer.range) :=
  (ownUplinkConfig_setup setup).trans (if_neg outside)

end UplinkConfig

set_option Elab.async false in
/-- Settles O45: the request by the mode and the range of its values, the effect by what is due. -/
theorem blockConfigurations : Obligations.BlockConfigurations := by
  refine ⟨fun tag b rest s h => ?request,
    fun s powered => ⟨fun c due => run_eq powered ?effect, fun none => run_eq powered ?idle⟩⟩
  case request =>
    intro rate most inRange
    have read : configInRange (nextRate s).mult b = true ↔ inRange := by
      rw [configInRange_iff, nextRate_eq]
      exact Iff.rfl
    exact ⟨fun operate => act_owned h (ownUplinkConfig_operate operate),
      fun setup inside => act_owned h (ownUplinkConfig_pends setup (read.mpr inside)),
      fun setup outside => act_owned h (ownUplinkConfig_range setup (mt read.mp outside))⟩
  case effect => rw [effectConfig, due]; rfl
  case idle => rw [effectConfig, none]

/-! The store (11_operating_modes_and_the_fallback_store.md, R186 to R188). -/

theorem Store.busy_of_not_writing {d : Store} (h : ∀ p tag since, d ≠ .writing p tag since) : d.busy = false :=
  match d with
  | .writing p tag since => absurd rfl (h p tag since)
  | .empty | .valid _ | .incomplete => rfl

section StoreWrite

variable {tag : Byte} {b : StoreWriteBody} {s : State}

theorem ownStoreWrite_busy {p : StoredPatch} {held : Byte} {since : Nat}
    (writing : s.device.store = .writing p held since) :
    ownStoreWrite tag (some b) s = (s, some (Answer.of .busy)) :=
  if_pos (congrArg Store.busy writing)

variable (idle : s.device.store.busy = false)
include idle

theorem ownStoreWrite_range (outside : 2 ≤ b.autostart ∨ 2 ≤ b.fallback ∨ 256 < s.engine.table.length) :
    ownStoreWrite tag (some b) s = (s, some Answer.range) := by
  simp only [ownStoreWrite, idle, Bool.false_eq_true, if_false]
  obtain h | h | h := outside
  · rw [readFlags, yesNoOf_large h]; rfl
  · rw [readFlags, bind_unread_rest fun _ => bind_unread (yesNoOf_large h)]
  · cases readFlags b with
    | none => rfl
    | some flags => exact if_pos h

theorem ownStoreWrite_takes {autostart fallback : Bool} (read : readFlags b = some (autostart, fallback))
    (short : s.engine.table.length ≤ 256) :
    ownStoreWrite tag (some b) s = (s.onDevice fun d => { d with
      store := .writing ⟨s.engine.table.map storeRecord, s.gen.rate, autostart, fallback⟩ tag s.clock.time }, none) := by
  simp only [ownStoreWrite, idle, Bool.false_eq_true, if_false, read, if_neg (Nat.not_lt.mpr short)]

end StoreWrite

theorem completeStore_writing {s : State} {p : StoredPatch} {tag : Byte} {since : Nat}
    (writing : s.device.store = .writing p tag since) :
    completeStore s = postStoreAlarm (pushReply tag 0x74 Answer.ok (s.onDevice fun d =>
      { d with store := .valid p, completed := wrapSucc 65536 d.completed })) := by
  rw [completeStore, writing]

theorem completeStore_idle {s : State} (h : ∀ p tag since, s.device.store ≠ .writing p tag since) :
    completeStore s = s := by
  rw [completeStore]
  split
  · next writing => exact (h _ _ _ writing).elim
  all_goals rfl

set_option Elab.async false in
/-- Settles O46: STORE_WRITE by the write in flight and its fields, the completion by the write in flight. -/
theorem storeWritesAndCompletes : Obligations.StoreWritesAndCompletes := by
  refine ⟨fun tag b rest s h => ⟨fun p held since writing => act_owner_some h (ownStoreWrite_busy writing),
    fun unwritten => ?write⟩, fun s inPeriod => ⟨fun p tag since writing => act_eq inPeriod ?complete,
    fun unwritten => act_eq inPeriod (completeStore_idle unwritten)⟩, fun tag rest s h => ?status⟩
  case write =>
    have idle := Store.busy_of_not_writing unwritten
    refine ⟨fun outside => act_owner_some h (ownStoreWrite_range (s := taken rest s) idle outside),
      fun autostart fallback first second short => act_owner_none h (ownStoreWrite_takes (s := taken rest s) idle ?_ short)⟩
    rw [readFlags, first, second, yesNoOf_toNat, yesNoOf_toNat]
    rfl
  case complete =>
    rw [completeStore_writing writing]
    exact (postAlarm_spec _ _).trans (by rw [stampNow_inPeriod]; exacts [rfl, inPeriod.2])
  case status =>
    refine ⟨_, act_reported h rfl, ?_, fun p valid => ?_, fun p held since writing => ?_, fun empty => ?_, fun cut => ?_⟩
    all_goals dsimp only [taken]
    · cases s.device.store <;> rfl
    · rw [valid]; exact ⟨rfl, rfl, rfl, rfl, rfl, rfl⟩
    · rw [writing]; exact ⟨rfl, rfl, rfl, rfl, rfl, rfl⟩
    · rw [empty]
    · rw [cut]

/-! The timers of the converter links (04_converter_links.md, R65, R66, R68, R81). -/

section Timers

variable {l : Link}

theorem noSyncDue_iff : noSyncDue l = true ↔ l.state = .align ∧ l.fresh = false ∧ 4096 ≤ l.alignCount + 1 :=
  decide_eq_true_iff

theorem holdOffDue_iff :
    holdOffDue l = true ↔ l.state = .fault ∧ l.recovery = .auto ∧ l.fresh = false ∧ 2048 ≤ l.holdOff + 1 :=
  decide_eq_true_iff

theorem timeoutDue_awaiting {tag : Byte} {count : Nat} {gathered : Option (Nat × List Byte)}
    (waits : l.relay = .awaiting tag count gathered) (due : 256 ≤ count + 1) : timeoutDue l = true := by
  rw [timeoutDue, waits]
  exact decide_eq_true due

theorem timeoutDue_early (early : ∀ tag count gathered, l.relay = .awaiting tag count gathered → count + 1 < 256) :
    ¬ timeoutDue l = true := by
  rw [timeoutDue]
  split
  · next waits => exact fun due => Nat.not_lt.mpr (of_decide_eq_true due) (early _ _ _ waits)
  all_goals exact Bool.false_ne_true

end Timers

/-- The command in flight ends with its reply (R80, R81). -/
theorem endCommand_onLink {i : Fin 8} {s : State} {f : Link → Link} {tag : Byte} (status : Status) (data : ReplyData)
    (h : (f (s.links[i.1]'i.2)).relay.tag = some tag) :
    endCommand i status data (s.onLink i f) =
      pushReply tag 0x45 ⟨status, false, data⟩ (s.onLink i fun l => { f l with relay := .idle }) := by
  have tagged : ((s.onLink i f).links[i.1]'i.2).relay.tag = some tag := by
    rw [State.onLink_links, modifyEntry_same, h]
  rw [endCommand]
  simp only [Fin.getElem_fin, tagged]
  exact congrArg (fun links => pushReply tag 0x45 _ { s with links := links }) (modifyEntry_twice ..)

set_option Elab.async false in
/-- Settles O52: each timer by its condition, with the entry it brings. -/
theorem linkTimers : Obligations.LinkTimers := by
  intro i s inPeriod l
  refine ⟨fun align late due => act_eq inPeriod ?noSync, fun early => act_eq inPeriod (if_neg ?_),
    fun fault auto late due => act_eq inPeriod ?holdOff, fun early => act_eq inPeriod (if_neg ?_),
    fun tag count gathered waits due => act_eq inPeriod ?timeout,
    fun early => act_eq inPeriod (if_neg (timeoutDue_early early))⟩
  case noSync =>
    have receives : l.state.receives = true := congrArg LinkState.receives align
    rw [failAlign, if_pos (noSyncDue_iff.mpr ⟨align, late, due⟩), enterFault_spec i _ s receives,
      stampNow_inPeriod inPeriod.2]
  case holdOff =>
    rw [expireHoldOff, if_pos (holdOffDue_iff.mpr ⟨fault, auto, late, due⟩), enterAlign_spec,
      stampNow_inPeriod inPeriod.2]
  case timeout =>
    rw [timeOutCommand, if_pos (timeoutDue_awaiting waits due), endCommand_onLink _ _ (congrArg Relay.tag waits)]
    rfl
  · rw [noSyncDue_iff]
    rintro ⟨align, late, due⟩
    obtain h | h | h := early
    exacts [h align, Bool.false_ne_true (late.symm.trans h), Nat.not_lt.mpr due h]
  · rw [holdOffDue_iff]
    rintro ⟨fault, auto, late, due⟩
    obtain h | h | h | h := early
    exacts [h fault, h auto, Bool.false_ne_true (late.symm.trans h), Nat.not_lt.mpr due h]

/-! LINK_RESTART, LINK_PAUSE and LINK_RESUME (04_converter_links.md, R65 to R67, R76, R77). -/

section Requests

variable {n : Nat} {i : Fin 8} {s : State}

theorem ownLinkRestart_range (large : 8 ≤ n) : ownLinkRestart (some n) s = (s, Answer.range) := by
  simp only [ownLinkRestart, Option.bind_some, linkOf_large large]

theorem ownLinkRestart_link : ownLinkRestart (some i.val) s =
    if (s.links[i.1]'i.2).state = .off then (s, Answer.of .linkDown) else (enterAlign i s, Answer.ok) := by
  simp only [ownLinkRestart, Option.bind_some, linkOf_val, Fin.getElem_fin]

/-- LINK_PAUSE and LINK_RESUME as one request (R77). -/
def ownPauseFlag (pause : Bool) (n : Nat) (s : State) : State × Answer :=
  match linkOf n with
  | none => (s, Answer.range)
  | some i => (setPause pause i s, Answer.ok)

theorem ownPauseFlag_range (pause : Bool) (large : 8 ≤ n) : ownPauseFlag pause n s = (s, Answer.range) := by
  rw [ownPauseFlag, linkOf_large large]

theorem ownPauseFlag_link (pause : Bool) : ownPauseFlag pause i.val s = (setPause pause i s, Answer.ok) := by
  rw [ownPauseFlag, linkOf_val]

/-- What LINK_PAUSE and LINK_RESUME do to the link they name. -/
theorem setPause_spec (pause : Bool) (i : Fin 8) (s : State) (inPeriod : s.boundary.taken = false) :
    let l := s.links[i.1]'i.2
    let after := if l.state = .active ∨ l.state = .paused then alignedState s.device.mode pause else l.state
    setPause pause i s = { s with
      links := s.links.set i.1 (movedTo after { l with pause := pause }) i.2
      mgmt := afterAlarms (if after = l.state then []
        else [.linkState i after l.degraded pause l.errors none s.gen.sampleCounter]) s.mgmt } := by
  intro l after
  rw [setPause, moveAligned_spec]
  simp only [Fin.getElem_fin, State.onLink_links, modifyEntry_same]
  simp [State.onLink, modifyEntry, stampNow, inPeriod, l, after]

end Requests

set_option Elab.async false in
/-- Settles O38: each request by its link's state, and the flag's move by what the mode and the flag ask. -/
theorem restartPauseResume : Obligations.RestartPauseResume := by
  refine ⟨fun tag n rest s h => ⟨fun large => act_owned h (ownLinkRestart_range large),
    fun i names off => ?down, fun i names alive => ?restart⟩, fun tag pause n rest s => ?pause⟩
  case down =>
    subst names
    exact act_owned h (ownLinkRestart_link.trans (if_pos off))
  case restart =>
    subst names
    refine (act_takeRequest h ..).trans ?_
    rw [ownLinkRestart_link, if_neg (by exact alive), enterAlign_spec]
    refine congrArg _ ((pushReply_alarmed rfl).trans ?_)
    rw [stampNow_inPeriod (s := taken rest s) h.1.2]
    rfl
  case pause =>
    intro c kind h
    have runs : exec c s = act (takeRequest c tag kind (owned (ownPauseFlag pause n))) s := by cases pause <;> rfl
    refine ⟨fun large => runs.trans (act_owned h (ownPauseFlag_range pause large)), fun i names => runs.trans ?_⟩
    subst names
    refine (act_takeRequest h ..).trans ?_
    rw [ownPauseFlag_link, setPause_spec pause i (taken rest s) h.1.2]
    exact congrArg _ ((pushReply_alarmed rfl).trans rfl)

/-! CLOCK_RATE and CLOCK_STATUS (05_the_studio_clock.md, R101, R106). -/

section ClockRate

variable {b : ClockRateBody} {rate : Rate} {s : State}

theorem ownClockRate_read (read : readRate b = some rate) :
    ownClockRate (some b) s = if s.device.mode = .operate then (s, Answer.of .wrongMode)
      else (s.onClock fun c => { c with pendingRate := some rate }, Answer.ok) := by
  rw [ownClockRate, Option.bind_some, read]

theorem ownClockRate_range (outside : 2 ≤ b.family ∨ 3 ≤ b.mult) : ownClockRate (some b) s = (s, Answer.range) := by
  have unread : readRate b = none := match outside with
    | .inl h => bind_unread (familyOf_large h)
    | .inr h => bind_unread_rest fun _ => bind_unread (multOf_large h)
  rw [ownClockRate, Option.bind_some, unread]

end ClockRate

theorem LinkState.receives_eq (l : LinkState) : l.receives = decide (l = .align ∨ l = .active ∨ l = .paused) := by
  cases l <;> rfl

set_option Elab.async false in
/-- Settles O41: CLOCK_RATE by its fields and the mode; the status is read off item by item. -/
theorem clockRateAndStatus : Obligations.ClockRateAndStatus := by
  refine ⟨fun tag family mult rest s => ?rate, fun tag b rest s h outside => act_owned h (ownClockRate_range outside),
    fun tag rest s h => ?status⟩
  case rate =>
    intro family' mult' c h
    have read : readRate ⟨family', mult'⟩ = some ⟨family, mult⟩ := by cases family <;> cases mult <;> rfl
    have answers := ownClockRate_read (s := taken rest s) read
    exact ⟨fun operate => act_owned h (answers.trans (if_pos operate)),
      fun setup => act_owned h (answers.trans (if_neg (setup ▸ nofun)))⟩
  case status =>
    have decided {p : Prop} [Decidable p] {α : Type} {x y : α} :
        (if decide p then x else y) = if p then x else y := if_congr decide_eq_true_iff rfl rfl
    refine ⟨_, act_reported h rfl, rfl, decided, decided, decided, fun other => if_neg (mt of_decide_eq_true other),
      fun start holding held => (if_pos (decide_eq_true holding)).trans ?held, rfl, rfl,
      List.map_congr_left fun k _ => ?candidate, rfl, rfl, rfl, rfl, rfl, rfl, rfl, rfl, rfl, rfl⟩
    case held =>
      rw [show (taken rest s).clock.holdStart = some start from held]
      rfl
    case candidate =>
      rw [candidateView]
      cases k.ref with
      | internal | wordclock => rfl
      | link i => exact congrArg (fun can => CandidateView.mk _ (some (_, can, _))) (LinkState.receives_eq _)

/-! COMMIT_APPLY (02_the_patch_table.md, R33, R34): what an edit leaves at its own pair and at every other, and from it by
induction what a change list leaves. -/

section Edits

variable {src dst : Slot} {table : List Crosspoint}

theorem findRecord_insertRecord_other {r : Crosspoint} (h : ¬ r.is src dst = true) :
    findRecord (insertRecord r table) src dst = findRecord table src dst := by
  induction table with
  | nil => exact List.find?_cons_of_neg h
  | cons x xs ih =>
    rw [insertRecord]
    split
    · exact List.find?_cons_of_neg h
    · simp only [findRecord, List.find?_cons]
      cases x.is src dst with
      | true => rfl
      | false => exact ih

theorem findRecord_eraseRecord_other {a b : Slot} (h : ¬ (a = src ∧ b = dst)) :
    findRecord (eraseRecord a b table) src dst = findRecord table src dst := by
  refine List.find?_filter.trans (congrArg (List.find? · table) (funext fun r => ?_))
  by_cases hr : r.is src dst
  · obtain ⟨source, destination⟩ := (Crosspoint.is_iff ..).mp hr
    have apart : r.is a b = false := decide_eq_false (source ▸ destination ▸ mt (fun ⟨p, q⟩ => ⟨p.symm, q.symm⟩) h)
    simp [hr, apart]
  · simp [hr]

/-- What edit, if any, stands for a pair decides what the table holds there after the commit (R33). -/
def editedRecord (found : Option Crosspoint) : Option Edit → Option Crosspoint
  | some (.add e) => some (joinRecord e)
  | some (.remove _ _) => none
  | none => found

theorem findRecord_applyEdit_other {d : Edit} (h : ¬ d.is src dst = true) :
    findRecord (applyEdit table d) src dst = findRecord table src dst := by
  rw [Edit.is_iff] at h
  cases d with
  | add e => exact findRecord_insertRecord_other (mt (Crosspoint.is_iff ..).mp h)
  | remove a b => exact findRecord_eraseRecord_other h

theorem applyEdit_sorted {d : Edit} (sorted : TableSorted table) (fits : EditFits table d) :
    TableSorted (applyEdit table d) :=
  match d with
  | .add _ => insertRecord_sorted sorted (findRecord_none.mp fits)
  | .remove _ _ => eraseRecord_sorted sorted

theorem findRecord_applyEdit_same {d : Edit} (sorted : TableSorted table) (fits : EditFits table d)
    (h : d.is src dst = true) (found : Option Crosspoint) :
    findRecord (applyEdit table d) src dst = editedRecord found (some d) := by
  obtain ⟨rfl, rfl⟩ := (Edit.is_iff ..).mp h
  have after := applyEdit_sorted sorted fits
  cases d with
  | add e => exact findRecord_of_mem after (mem_insertRecord.mpr (.inl rfl))
  | remove a b => exact findRecord_none.mpr fun r hr => (mem_eraseRecord.mp hr).2

theorem editFits_applyEdit {d e : Edit} (apart : d.is e.source e.destination = false) (fits : EditFits table e) :
    EditFits (applyEdit table d) e := by
  have same := findRecord_applyEdit_other (table := table) (ne_true_of_eq_false apart)
  cases e with
  | add e => exact same.trans fits
  | remove a b => exact (congrArg Option.isSome same).trans fits

end Edits

/-- A change list that fits the table leaves it in order, with every edit applied (R33). -/
theorem foldl_applyEdit {edits : List Edit} {table : List Crosspoint} (sorted : TableSorted table)
    (apart : edits.Pairwise fun a b => a.is b.source b.destination = false) (fits : ∀ e ∈ edits, EditFits table e) :
    TableSorted (edits.foldl applyEdit table) ∧ ∀ src dst, findRecord (edits.foldl applyEdit table) src dst =
      editedRecord (findRecord table src dst) (findEdit edits src dst) := by
  induction edits generalizing table with
  | nil => exact ⟨sorted, fun _ _ => rfl⟩
  | cons d edits ih =>
    obtain ⟨others, apart⟩ := List.pairwise_cons.mp apart
    obtain ⟨fit, fits⟩ := List.forall_mem_cons.mp fits
    obtain ⟨after, found⟩ := ih (applyEdit_sorted sorted fit) apart
      fun e he => editFits_applyEdit (others e he) (fits e he)
    refine ⟨after, fun src dst => (found src dst).trans ?_⟩
    by_cases h : d.is src dst
    · have rest : findEdit edits src dst = none := findEdit_none.mpr fun e he same =>
        Bool.false_ne_true ((others e he).symm.trans (same.1 ▸ same.2 ▸ h))
      have first : findEdit (d :: edits) src dst = some d := List.find?_cons_of_pos h
      rw [rest, first]
      exact findRecord_applyEdit_same sorted fit h _
    · have rest : findEdit (d :: edits) src dst = findEdit edits src dst := List.find?_cons_of_neg h
      rw [findRecord_applyEdit_other h, rest]

theorem applyCommit_due {s : State} {tag : Byte} (due : s.boundary.commit = true) (listSealed : s.engine.commit = some tag) :
    applyCommit s = pushReply tag 0x17 Answer.ok ((s.onBoundary fun b => { b with commit := false }).onEngine fun e =>
      { e with table := e.edits.foldl applyEdit e.table, edits := [], commit := none }) := by
  rw [applyCommit, if_pos due, listSealed]

set_option Elab.async false in
/-- Settles O25, by induction on the change list. -/
theorem commitAppliesEveryEdit : Obligations.CommitAppliesEveryEdit := by
  refine fun s powered => ⟨fun tag sound due listSealed => ?_, fun none => run_eq powered ?_,
    fun due emptied => run_eq powered ?_⟩
  · obtain ⟨sorted, found⟩ := foldl_applyEdit sound.sorted sound.distinct sound.fits
    refine ⟨_, run_eq powered (applyCommit_due due listSealed), sorted, fun src dst => (found src dst).trans ?_⟩
    cases edit : findEdit s.engine.edits src dst with
    | none => rfl
    | some d =>
      obtain ⟨-, rfl, rfl⟩ := findEdit_some edit
      cases d <;> rfl
  · rw [applyCommit, none]; rfl
  · rw [applyCommit, if_pos due, emptied]; rfl

/-! Uplink loss and the fallback decision (06_uplink_blocks_and_the_playback_ring.md, R117, R118), and a step of the
queue. -/

section Fallback

variable {s : State}

theorem loseUplink_due (up : s.uplink.state = .up) (silent : 32 ≤ s.uplink.lossCount) :
    loseUplink s = postUplinkAlarm .lost none (s.onUplink fun u => { u with
      state := .lost, fallbackArmed := true, counters := { u.counters with losses := bump32 u.counters.losses } }) :=
  if_pos (decide_eq_true ⟨up, silent⟩)

theorem loseUplink_early (h : s.uplink.state = .lost ∨ s.uplink.lossCount < 32) : loseUplink s = s := by
  refine if_neg fun due => ?_
  obtain ⟨up, silent⟩ := of_decide_eq_true due
  obtain lost | heard := h
  · exact nomatch up.symm.trans lost
  · exact Nat.not_lt.mpr silent heard

theorem fallbackPatch_eq_some {p : StoredPatch} (lost : s.uplink.state = .lost) (valid : s.device.store = .valid p)
    (set : p.fallback = true) : fallbackPatch s = some p := by
  simp only [fallbackPatch, lost, valid, set, if_true]

theorem fallbackPatch_none (h : s.uplink.state = .up ∨ ∀ p, s.device.store = .valid p → p.fallback = false) :
    fallbackPatch s = none := by
  rw [fallbackPatch]
  cases lost : s.uplink.state with
  | up => rfl
  | lost =>
    cases valid : s.device.store with
    | valid p => exact if_neg (ne_true_of_eq_false (h.elim (fun up => nomatch up.symm.trans lost) (· p valid)))
    | empty | writing _ _ _ | incomplete => rfl

end Fallback

set_option Elab.async false in
/-- Settles O28: the loss by the uplink's state and its loss count, the decision by the patch that it finds. -/
theorem lossAndFallback : Obligations.LossAndFallback := by
  refine fun s powered => ⟨fun up silent => run_eq powered (loseUplink_due up silent),
    fun early => run_eq powered (loseUplink_early early), fun due => ⟨fun p lost valid set => run_eq powered ?_,
    fun none => run_eq powered ?_⟩, fun none => run_eq powered ?_⟩
  · rw [decideFallback, if_pos due, fallbackPatch_eq_some lost valid set]; rfl
  · rw [decideFallback, if_pos due, fallbackPatch_none none]; rfl
  · rw [decideFallback, none]; rfl

set_option Elab.async false in
/-- Settles O1: a step runs the front command by definition. -/
theorem stepRunsTheFrontCommand : Obligations.StepRunsTheFrontCommand := fun _ _ _ => rfl

/-! XP_READ and PATCH_LIST (02_the_patch_table.md, R23, R24). -/

section PatchReads

variable {src dst : Slot} {s : State}

theorem ownXpRead_range {b : PairBody} (s : State) (outside : 528 ≤ b.source ∨ 528 ≤ b.destination) :
    ownXpRead (some b) s = Answer.range := by
  rw [ownXpRead, Option.bind_some, readPairBody_outside outside]

theorem ownPatchList_range {b : PatchListBody} (s : State) (outside : 1023 < b.first ∨ b.count = 0 ∨ 8 < b.count) :
    ownPatchList (some b) s = Answer.range :=
  if_neg fun ⟨first, low, high⟩ => outside.elim first.not_gt (·.elim (Nat.ne_zero_of_lt low) high.not_gt)

end PatchReads

set_option Elab.async false in
/-- Settles O32: XP_READ by the route of its pair, PATCH_LIST by the records from its first index on. -/
theorem patchReads : Obligations.PatchReads := by
  refine ⟨fun tag src dst rest s => ?read, fun tag b rest s h outside => act_reported h (ownXpRead_range _ outside),
    fun tag b rest s h => ⟨fun first low high => ?list, fun outside => act_reported h (ownPatchList_range _ outside)⟩⟩
  case read =>
    intro c h
    refine ⟨fun r found => act_reported h ?_, fun e absent edit => act_reported h ?_,
      fun absent edit => act_reported h ?_⟩
    all_goals simp only [ownXpRead, Option.bind_some, readPairBody_fields, taken]
    · rw [route_record found]; rfl
    · rw [route_pendingAdd absent edit]; rfl
    · rw [route_nothing absent edit]; rfl
  case list =>
    refine ⟨((s.engine.table.drop b.first).take b.count).map (listRecord s.engine.edits),
      act_reported h (if_pos ⟨first, low, high⟩), by simp, fun n small => ?_⟩
    rw [List.length_map, List.length_take, List.length_drop, Nat.lt_min] at small
    refine ⟨_, List.getElem?_eq_getElem (Nat.add_lt_of_lt_sub' small.2), ?_⟩
    rw [List.getElem?_map, List.getElem?_take_of_lt small.1, List.getElem?_drop,
      List.getElem?_eq_getElem (Nat.add_lt_of_lt_sub' small.2)]
    rfl

/-! The surface links' requests (07_surface_links.md, R132 to R134). -/

section SurfaceSend

variable {b : SurfaceSendBody} {i : Fin 4} {kind : UpdateKind} {address value : Nat} {s : State}

theorem readUpdate_none {kind value : Nat} (outside : kind < 8 ∨ 10 < kind ∨ kind = 8 ∧ 1023 < value ∨
    kind = 9 ∧ 3 < value ∨ kind = 10 ∧ 16 < value) : readUpdate kind value = none := by
  have unread (position : ¬(kind = 8 ∧ value ≤ 1023)) (lamp : ¬(kind = 9 ∧ value ≤ 3))
      (meter : ¬(kind = 10 ∧ value ≤ 16)) : readUpdate kind value = none :=
    (if_neg position).trans ((if_neg lamp).trans (if_neg meter))
  obtain low | high | ⟨rfl, large⟩ | ⟨rfl, large⟩ | ⟨rfl, large⟩ := outside
  · exact unread (fun h => absurd (h.1 ▸ low : 8 < 8) (by decide)) (fun h => absurd (h.1 ▸ low : 9 < 8) (by decide))
      fun h => absurd (h.1 ▸ low : 10 < 8) (by decide)
  · exact unread (fun h => absurd (h.1 ▸ high : 10 < 8) (by decide)) (fun h => absurd (h.1 ▸ high : 10 < 9) (by decide))
      fun h => absurd (h.1 ▸ high : 10 < 10) (by decide)
  · exact unread (fun h => not_le.mpr large h.2) (fun h => absurd h.1 (by decide)) fun h => absurd h.1 (by decide)
  · exact unread (fun h => absurd h.1 (by decide)) (fun h => not_le.mpr large h.2) fun h => absurd h.1 (by decide)
  · exact unread (fun h => absurd h.1 (by decide)) (fun h => absurd h.1 (by decide)) fun h => not_le.mpr large h.2

theorem readSend_outside (outside : 4 ≤ b.link ∨ b.kind < 8 ∨ 10 < b.kind ∨ 4096 ≤ b.address ∨
    b.kind = 8 ∧ 1023 < b.value ∨ b.kind = 9 ∧ 3 < b.value ∨ b.kind = 10 ∧ 16 < b.value) : readSend b = none := by
  obtain large | low | high | far | excess := outside
  · exact bind_unread (surfaceOf_large large)
  · exact bind_unread_rest fun _ => bind_unread (readUpdate_none (.inl low))
  · exact bind_unread_rest fun _ => bind_unread (readUpdate_none (.inr (.inl high)))
  · exact bind_unread_rest fun _ => bind_unread_rest fun _ => bind_unread (within_outside (.inr far))
  · exact bind_unread_rest fun _ => bind_unread (readUpdate_none (.inr (.inr excess)))

theorem ownSurfaceSend_range (s : State) (unread : readSend b = none) :
    ownSurfaceSend (some b) s = (s, Answer.range) := by
  rw [ownSurfaceSend, Option.bind_some, unread]

section

variable (read : readSend b = some (i, kind, address, value))
include read

theorem ownSurfaceSend_down (down : (s.surfaces[i.1]'i.2).state ≠ .online) :
    ownSurfaceSend (some b) s = (s, Answer.of .linkDown) := by
  rw [ownSurfaceSend, Option.bind_some, read]
  exact if_neg down

theorem ownSurfaceSend_online {f : Surface} {placed : Offer} (online : (s.surfaces[i.1]'i.2).state = .online)
    (offered : (s.surfaces[i.1]'i.2).offered kind address value = f)
    (places : (placeUpdate kind address value (s.surfaces[i.1]'i.2).updates).2 = placed) :
    ownSurfaceSend (some b) s = ({ s with surfaces := s.surfaces.set i.1 f i.2 },
      if placed = .dropped then Answer.of .full else Answer.ok) := by
  subst offered places
  rw [ownSurfaceSend, Option.bind_some, read]
  exact (if_pos online).trans (congrArg (·, _) (offerUpdate_online _ _ _ online))

end

end SurfaceSend

section Placed

variable {kind : UpdateKind} {address : Nat} (value : Nat) {set : List Update}

theorem placeUpdate_present (present : ∃ u ∈ set, u.kind = kind ∧ u.address = address) :
    (placeUpdate kind address value set).2 = .replaced := by
  rw [placeUpdate, if_pos (by simpa using present)]

theorem placeUpdate_room (absent : ∀ u ∈ set, ¬ (u.kind = kind ∧ u.address = address)) (room : set.length < 32) :
    (placeUpdate kind address value set).2 = .appended := by
  rw [placeUpdate_absent (f := { Surface.reset with updates := set }) value absent]
  exact congrArg _ (if_pos room)

theorem placeUpdate_full (absent : ∀ u ∈ set, ¬ (u.kind = kind ∧ u.address = address)) (full : 32 ≤ set.length) :
    (placeUpdate kind address value set).2 = .dropped := by
  rw [placeUpdate_absent (f := { Surface.reset with updates := set }) value absent]
  exact congrArg _ (if_neg (Nat.not_lt.mpr full))

end Placed

theorem ownSurfaceConfig_range {b : SurfaceConfigBody} (s : State)
    (outside : 4 ≤ b.link ∨ b.interval = 0 ∨ 64 < b.interval) : ownSurfaceConfig (some b) s = (s, Answer.range) := by
  rw [ownSurfaceConfig]
  obtain large | low | high := outside
  · rw [surfaceOf_large large]
  · rw [within_outside (.inl (Nat.lt_one_iff.mpr low))]; cases surfaceOf b.link <;> rfl
  · rw [within_outside (.inr high)]; cases surfaceOf b.link <;> rfl

theorem ownSurfaceStatus_range {n : Nat} (large : 4 ≤ n) (s : State) : ownSurfaceStatus (some n) s = Answer.range := by
  rw [ownSurfaceStatus, Option.bind_some, surfaceOf_large large]

theorem ownSurfaceStatus_link (i : Fin 4) (s : State) :
    ownSurfaceStatus (some i.val) s =
      let f := s.surfaces[i.1]'i.2
      Answer.okData (.surfaceStatus
        { state := f.state, model := f.model
          since := if f.state = .online then some (msSince s f.silenceStart) else none
          interval := f.interval
          stored := if f.stored = f.interval then none else some f.stored
          ackPending := f.ackPending, entries := f.updates.length
          positions := classView .setPosition f.updates, lamps := classView .lamp f.updates
          meters := classView .meter f.updates, holds := holdsOf i s.engine.table, block := s.rules.blocks[i.1]'i.2 }) := by
  rw [ownSurfaceStatus, Option.bind_some, surfaceOf_val]
  rfl

set_option Elab.async false in
/-- Settles O36: SURFACE_SEND by its fields, the link's state and what became of the offer; the status item by item. -/
theorem surfaceRequests : Obligations.SurfaceRequests := by
  refine ⟨fun tag i kind address value rest s inRange fits => ?send,
    fun tag b rest s h outside => act_owned h (ownSurfaceSend_range _ (readSend_outside outside)),
    fun tag b rest s h => ⟨fun i names low high => act_owned h ?config,
      fun outside => act_owned h (ownSurfaceConfig_range _ outside)⟩,
    fun tag n rest s h => ⟨fun i names => ?status, fun large => act_reported h (ownSurfaceStatus_range large _)⟩⟩
  case send =>
    intro code c f h
    have read : readSend ⟨i.val, code, address, value⟩ = some (i, kind, address, value) := by
      have kinds : readUpdate code value = some kind := by
        cases kind <;> simpa [readUpdate, code] using fits
      rw [readSend, surfaceOf_val, kinds, within_inside (Nat.zero_le _) (Nat.le_of_lt_succ inRange)]
      rfl
    have sends {f placed} := ownSurfaceSend_online (s := taken rest s) (f := f) (placed := placed) read
    exact ⟨fun down => act_owned h (ownSurfaceSend_down read down),
      fun online present => act_owned h (sends online (Surface.offered_replaces value present)
        (placeUpdate_present value present)),
      fun online absent room => act_owned h (sends online
        (Surface.offered_appends value absent room) (placeUpdate_room value absent room)),
      fun online absent full => act_owned h (sends online
        (Surface.offered_drops value absent full) (placeUpdate_full value absent full))⟩
  case config =>
    rw [ownSurfaceConfig, names, surfaceOf_val, within_inside low high]; rfl
  case status =>
    subst names
    exact ⟨_, act_reported h (ownSurfaceStatus_link i _), rfl, rfl, rfl, rfl, rfl, rfl, rfl,
      ⟨⟨rfl, rfl⟩, ⟨rfl, rfl⟩, rfl, rfl⟩, rfl, rfl⟩

/-! EDGE_LOSS, PULL_IN_COUNT and HOLDOVER_EXPIRY (05_the_studio_clock.md, R92, R96 to R99). -/

/-- An alarm of the clock unit within a sample period (R105). -/
theorem postClockAlarm_inPeriod {s : State} (inPeriod : s.boundary.taken = false) :
    postClockAlarm s = { s with mgmt := afterAlarms [.clockState s.clock.lock (namedReference s.clock) s.gen.rate
      (if s.clock.lock = .free then none else s.clock.heldDeviation) s.gen.sampleCounter] s.mgmt } :=
  (postAlarm_spec ..).trans (by rw [stampNow_inPeriod inPeriod])

theorem enterLocked_inPeriod {s : State} {offset : Int} (inPeriod : s.boundary.taken = false)
    (at_ : offsetAtLock s.clock = offset) :
    enterLocked s = { s with
      clock := { s.clock with lock := .locked, lockOffset := offset }
      mgmt := afterAlarms [.clockState .locked s.clock.selected s.gen.rate s.clock.heldDeviation s.gen.sampleCounter]
        s.mgmt } := by
  subst at_
  exact postClockAlarm_inPeriod (s := State.onClock _ s) inPeriod

theorem edgeLossDue_iff {ref : Reference} {s : State} : edgeLossDue ref s = true ↔ ∃ k w, findCandidate s.clock ref = some k ∧
    k.window = some w ∧ w.latest + 4 * nominalTicks s.gen.rate.mult ≤ s.clock.ticks + s.clock.periodTicks := by
  simp only [edgeLossDue, lossTick, Option.any_eq_true, Option.map_eq_some_iff, Option.bind_eq_some_iff, decide_eq_true_eq]
  constructor
  · rintro ⟨_, ⟨w, ⟨k, found, window⟩, rfl⟩, due⟩
    exact ⟨k, w, found, window, due⟩
  · rintro ⟨k, w, found, window, due⟩
    exact ⟨_, ⟨w, ⟨k, found, window⟩, rfl⟩, due⟩

set_option Elab.async false in
/-- Settles O55: each event by its condition, with the entry that it brings. -/
theorem clockEvents : Obligations.ClockEvents := by
  intro s inPeriod silent followed without alarmed
  have loses (ref : Reference) : silent ref ↔ edgeLossDue ref s = true := by
    refine Iff.trans ?_ edgeLossDue_iff.symm
    have spaced : (match s.gen.rate.mult with
        | .x1 => 2048
        | .x2 => 1024
        | .x4 => 512) = 4 * nominalTicks s.gen.rate.mult := by cases s.gen.rate.mult <;> rfl
    exact spaced ▸ Iff.rfl
  have spec (ref : Reference) := disqualify_spec ref (s.onClock fun c =>
    { c with counters := { c.counters with edgeLosses := bump32 c.counters.edgeLosses } })
  refine ⟨fun ref due other => act_eq inPeriod ?free, fun ref due follows => act_eq inPeriod ?lost,
    fun ref early => act_eq inPeriod (if_neg (mt (loses ref).mpr early)), fun e pulling full edge => act_eq inPeriod ?locked,
    fun pulling full unknown => act_eq inPeriod ?blind, fun early => act_eq inPeriod (if_neg ?early),
    fun start holding held => ⟨fun full => act_eq inPeriod ?expires, fun before => act_eq inPeriod ?holds⟩,
    fun other => act_eq inPeriod ?other⟩
  case free => exact (if_pos ((loses ref).mp due)).trans ((spec ref).2 other)
  case lost =>
    rw [loseEdges, if_pos ((loses ref).mp due), loseReference, (spec ref).1 follows, postAlarm_spec,
      stampNow_inPeriod (s := State.onClock _ s) inPeriod.2]
    rfl
  case locked =>
    exact (if_pos ⟨pulling, full⟩).trans (enterLocked_inPeriod inPeriod.2 (by rw [offsetAtLock, edge]))
  case blind =>
    exact (if_pos ⟨pulling, full⟩).trans (enterLocked_inPeriod inPeriod.2 (by rw [offsetAtLock, unknown]))
  case early => exact fun ⟨pulling, full⟩ => early.elim (· pulling) full.not_gt
  case expires =>
    rw [expiryStep, holding, held]
    exact (if_pos full).trans (postClockAlarm_inPeriod (s := State.onClock _ s) inPeriod.2)
  case holds =>
    rw [expiryStep, holding, held]
    exact if_neg (Nat.not_le.mpr before)
  case other =>
    rw [expiryStep]
    cases lock : s.clock.lock with
    | holdover => exact absurd lock other
    | free | pullIn | locked => rfl

/-! FRAME_START (04_converter_links.md, R60, R84). -/

theorem LinkState.receives_iff {l : LinkState} : l.receives = true ↔ l = .align ∨ l = .active ∨ l = .paused := by
  cases l <;> simp [LinkState.receives]

section StartFrame

variable {phase ticks : Nat} {f : FramePeriod}

theorem FramePeriod.windowOpen_iff :
    f.windowOpen phase ticks = true ↔ f.status = .unstarted ∧ (f.age = 0 ∨ f.age = 1 ∧ 4 * phase ≤ ticks) := by
  simp only [FramePeriod.windowOpen, Bool.and_eq_true, Bool.or_eq_true, decide_eq_true_eq]

theorem startFirst_append {before after : List FramePeriod} (closed : ∀ g ∈ before, ¬ g.windowOpen phase ticks = true)
    (opens : f.windowOpen phase ticks = true) :
    startFirst phase ticks (before ++ f :: after) = before ++ { f with status := .started } :: after := by
  induction before with
  | nil => exact if_pos opens
  | cons g before ih =>
    obtain ⟨first, closed⟩ := List.forall_mem_cons.mp closed
    exact (if_neg first).trans (congrArg (g :: ·) (ih closed))

end StartFrame

set_option Elab.async false in
/-- Settles O49: the earliest open window takes the start, by induction on the frame periods before it. -/
theorem frameStartsTakeTheEarliestWindow : Obligations.FrameStartsTakeTheEarliestWindow := by
  intro i phase countFirst s inPeriod l isOpen receives
  have hears : receives ↔ l.state.receives = true := LinkState.receives_iff.symm
  have opens (f : FramePeriod) : f.windowOpen phase s.clock.periodTicks = true ↔ isOpen f := FramePeriod.windowOpen_iff
  refine ⟨fun before f after receives frames closed first => act_eq inPeriod ?_,
    fun receives none => act_eq inPeriod ?_, fun deaf => act_eq inPeriod (if_neg (mt hears.mpr deaf))⟩
  · have found : l.frames.any (FramePeriod.windowOpen phase s.clock.periodTicks) = true :=
      List.any_eq_true.mpr ⟨f, frames ▸ List.mem_append_right _ (List.mem_cons_self ..), (opens f).mpr first⟩
    refine ((if_pos (hears.mp receives)).trans (if_pos found)).trans (congrArg (referenceEdge _ _ _) ?_)
    have started := startFirst_append (after := after) (fun g hg => mt (opens g).mp (closed g hg)) ((opens f).mpr first)
    rw [← frames] at started
    exact congrArg (fun frames => { s with links := s.links.set i.1 { l with frames := frames } i.2 }) started
  · have found : ¬ l.frames.any (FramePeriod.windowOpen phase s.clock.periodTicks) = true := fun any => by
      obtain ⟨f, hf, window⟩ := List.any_eq_true.mp any
      exact none f hf ((opens f).mp window)
    exact (if_pos (hears.mp receives)).trans (if_neg found)

/-! HELLO, KEEPALIVE and discarded surface messages (07_surface_links.md, R122, R124, R125, R128). -/

section Hello

variable {i : Fin 4} {model : Nat} {s : State}

/-- A HELLO within a sample period: the link is greeted, with an alarm unless it was ONLINE under that model code. -/
theorem hearHello_inPeriod (inPeriod : s.boundary.taken = false) :
    let f := s.surfaces[i.1]'i.2
    hearHello i model s = { s with
      surfaces := s.surfaces.set i.1 ((f.counted false s.clock.time).greeted model s.clock.time) i.2
      mgmt := afterAlarms (if f.state = .online ∧ f.model = some model then []
        else [.surfaceState i .online (some model) none s.gen.sampleCounter]) s.mgmt } := by
  intro f
  by_cases known : f.state = .online ∧ f.model = some model
  · rw [if_pos known]
    exact if_pos known
  · rw [if_neg known]
    refine (if_neg known).trans ((postAlarm_spec ..).trans ?_)
    rw [stampNow_inPeriod (s := State.onSurface i _ s) inPeriod, State.onSurface_surfaces]
    simp only [Fin.getElem_fin, modifyEntry_same]
    rfl

theorem hearKeepalive_eq {f : Surface} (h : (if (s.surfaces[i.1]'i.2).state = .online then
      { (s.surfaces[i.1]'i.2).counted false s.clock.time with silenceStart := s.clock.time }
    else ((s.surfaces[i.1]'i.2).counted false s.clock.time).discarded) = f) :
    hearKeepalive i s = { s with surfaces := s.surfaces.set i.1 f i.2 } :=
  congrArg (fun surfaces => { s with surfaces := surfaces }) (modifyEntry_eq h)

end Hello

set_option Elab.async false in
/-- Settles O56: each event by the link's state, the assembler's time and the cause of the discard. -/
theorem surfaceLinksComeAndGo : Obligations.SurfaceLinksComeAndGo := by
  refine fun i s inPeriod => ⟨fun address model => act_eq inPeriod (hearHello_inPeriod inPeriod.2),
    fun online => act_eq inPeriod (hearKeepalive_eq (if_pos online)),
    fun away => act_eq inPeriod (hearKeepalive_eq (if_neg away)), fun start => act_eq inPeriod rfl,
    fun cause h => act_eq inPeriod ?cause, fun late => act_eq inPeriod (if_pos (decide_eq_true late)),
    fun early => act_eq inPeriod (if_neg fun due => Nat.not_lt.mpr (of_decide_eq_true due) early)⟩
  obtain rfl | rfl | rfl := h <;> rfl

/-! The silence and send-interval timers (07_surface_links.md, R126, R130, R133). -/

section Choose

variable {set : List Update} {u : Update}

/-- The first entry of a set that has property `p`. -/
def FirstWith (p : Update → Prop) (set : List Update) (u : Update) : Prop :=
  ∃ before after, set = before ++ u :: after ∧ p u ∧ ∀ v ∈ before, ¬ p v

theorem FirstWith.find {p : Update → Prop} [DecidablePred p] (h : FirstWith p set u) :
    set.find? (fun v => decide (p v)) = some u := by
  obtain ⟨before, after, rfl, holds, none⟩ := h
  exact List.find?_eq_some_iff_append.mpr ⟨decide_eq_true holds, before, after, rfl, fun v hv => by simpa using none v hv⟩

theorem find_none {p : Update → Prop} [DecidablePred p] (h : ∀ v ∈ set, ¬ p v) :
    set.find? (fun v => decide (p v)) = none :=
  List.find?_eq_none.mpr fun v hv => mt of_decide_eq_true (h v hv)

/-- The entry that R130 chooses. -/
theorem chooseUpdate_some (h : FirstWith (fun v => 8 ≤ v.age) set u ∨ (∀ v ∈ set, v.age < 8) ∧
      (FirstWith (fun v => v.kind = .setPosition) set u ∨ (∀ v ∈ set, v.kind ≠ .setPosition) ∧
        (FirstWith (fun v => v.kind = .lamp) set u ∨ (∀ v ∈ set, v.kind = .meter) ∧ set.head? = some u))) :
    chooseUpdate set = some u := by
  rw [chooseUpdate]
  obtain old | ⟨young, positions | ⟨unset, lamp | ⟨meters, head⟩⟩⟩ := h
  · rw [old.find]
  · rw [find_none fun v hv => Nat.not_le.mpr (young v hv), positions.find]
  · rw [find_none fun v hv => Nat.not_le.mpr (young v hv), find_none unset, lamp.find]
  · rw [find_none fun v hv => Nat.not_le.mpr (young v hv), find_none unset,
      find_none fun v hv => by rw [meters v hv]; nofun]
    obtain ⟨rest, rfl⟩ := List.head?_eq_some_iff.mp head
    exact List.find?_cons_of_pos (decide_eq_true (meters u (List.mem_cons_self ..)))

end Choose

theorem Surface.send_ack {f : Surface} (pending : f.ackPending = true) : f.send =
    { f with
      ackPending := false, updates := ageUpdates f.updates, lastSent := some .helloAck
      counters := { f.counters with sent := bump32 f.counters.sent } } := if_pos pending

theorem Surface.send_update {f : Surface} {u : Update} (unpending : f.ackPending = false)
    (chosen : chooseUpdate f.updates = some u) : f.send =
    { f with
      updates := ageUpdates (takeUpdate u f.updates), lastSent := some (.update u.kind u.address u.value)
      counters := { f.counters with sent := bump32 f.counters.sent } } := by
  rw [Surface.send, unpending, chosen]
  rfl

theorem Surface.send_nothing {f : Surface} (unpending : f.ackPending = false) (empty : f.updates = []) :
    f.send = f := by
  rw [Surface.send, if_neg (ne_true_of_eq_false unpending), empty]
  exact congrArg (fun updates => { f with updates := updates }) empty.symm

section Expiry

variable {i : Fin 4} {s : State}

theorem expireSilence_due (inPeriod : s.boundary.taken = false) (due : silenceDue s (s.surfaces[i.1]'i.2) = true) :
    expireSilence i s = { s with
      engine := { s.engine with table := releaseOwner i s.engine.table }
      surfaces := s.surfaces.set i.1 (s.surfaces[i.1]'i.2).lose i.2
      mgmt := afterAlarms [.surfaceState i .lost (s.surfaces[i.1]'i.2).model (some (holdsOf i s.engine.table))
        s.gen.sampleCounter] s.mgmt } := by
  refine (if_pos due).trans ((postAlarm_spec ..).trans ?_)
  rw [stampNow_inPeriod (s := State.onSurface i _ (State.onEngine _ s)) inPeriod, State.onSurface_surfaces]
  simp only [Fin.getElem_fin, modifyEntry_same]
  rfl

theorem expireInterval_due {f : Surface} (due : intervalDue s (s.surfaces[i.1]'i.2) = true)
    (h : (if (s.surfaces[i.1]'i.2).state = .online then (s.surfaces[i.1]'i.2).send else s.surfaces[i.1]'i.2) = f) :
    expireInterval i s = { s with surfaces := s.surfaces.set i.1 f.restartInterval i.2 } :=
  h ▸ if_pos due

end Expiry

set_option Elab.async false in
/-- Settles O59: the silence timer by its time, the send interval by what the link has to send. -/
theorem surfaceTimers : Obligations.SurfaceTimers := by
  intro i s inPeriod f now sent older without counted due first
  have expires {f' : Surface} (late : due) (h : (if f.state = .online then f.send else f) = f') :=
    act_eq inPeriod (expireInterval_due (decide_eq_true late) h)
  refine ⟨fun online late => ?silence, fun early => act_eq inPeriod (if_neg fun full => ?early),
    fun late online pending => expires late ((if_pos online).trans (Surface.send_ack pending)),
    fun u late online unpending h =>
      expires late ((if_pos online).trans (Surface.send_update unpending (chooseUpdate_some h))),
    fun late h => expires late (ite_eq_right_iff.mpr fun online => ?nothing),
    fun early => act_eq inPeriod (if_neg (mt of_decide_eq_true early))⟩
  case silence =>
    refine act_eq inPeriod ?_
    rw [expireSilence_due inPeriod.2 (decide_eq_true ⟨online, late⟩), releaseOwner, releaseHold_eq]
    rfl
  case early =>
    obtain ⟨online, late⟩ := of_decide_eq_true full
    exact early.elim (· online) late.not_gt
  case nothing =>
    obtain away | ⟨unpending, empty⟩ := h
    · exact absurd online away
    · exact Surface.send_nothing unpending empty

/-! Downstream frames and the budget (06_uplink_blocks_and_the_playback_ring.md, R110 to R112; 10_management_messages.md,
R169). -/

theorem Relay.busy_eq_decide (r : Relay) : r.busy = decide (r ≠ .idle) := by
  rw [Bool.eq_iff_iff, Relay.busy_iff, decide_eq_true_iff]

theorem placesInUse_eq (s : State) : placesInUse s =
    s.mgmt.requests.length + (if s.engine.commit = none then 0 else 1) +
      (s.links.toList.filter fun l => decide (l.relay ≠ .idle)).length +
      (match s.device.store with
      | .writing _ _ _ => 1
      | _ => 0) +
      s.mgmt.replies.length +
      (match s.mgmt.lane with
      | .message (.reply _) => 1
      | _ => 0) := by
  have commit : s.engine.commit.isSome.toNat = if s.engine.commit = none then 0 else 1 := by
    cases s.engine.commit <;> rfl
  have store : s.device.store.busy.toNat = match s.device.store with
      | .writing _ _ _ => 1
      | _ => 0 := by cases s.device.store <;> rfl
  have lane : s.mgmt.lane.holdsPlace.toNat = match s.mgmt.lane with
      | .message (.reply _) => 1
      | _ => 0 := by rcases s.mgmt.lane with _ | _ | ⟨_ | _ | _ | _⟩ <;> rfl
  rw [placesInUse, inFlight, commit, store, lane, funext fun l : Link => l.relay.busy_eq_decide]
  simp only [Nat.add_assoc]

theorem hearFrame_window (s : State) :
    (hearFrame s).uplink.ring = s.uplink.ring ∧ (hearFrame s).uplink.nextPlay = s.uplink.nextPlay := by
  obtain ⟨-, heard⟩ | ⟨-, heard⟩ := hearFrame_cases s <;> rw [heard] <;> exact ⟨rfl, rfl⟩

theorem UplinkRx.file_eq {b : DownBlock} {u : UplinkRx} (small : b.number < 65536) :
    let d := ((b.number : Int) - u.nextPlay) % 65536
    let count (f : UplinkCounters → UplinkCounters) : UplinkRx := { u with counters := f u.counters }
    u.file b =
      if d < 4 then
        if ∃ r ∈ u.ring, r.number = b.number then count fun c => { c with duplicates := bump32 c.duplicates }
        else { u with
          ring := u.ring ++ [⟨b.number, b.containers.map sampleOf⟩]
          counters := { u.counters with stored := bump32 u.counters.stored } }
      else if d < 32768 then count fun c => { c with early := bump32 c.early }
      else count fun c => { c with late := bump32 c.late } := by
  have offset (n : Nat) : ringOffset b.number u.nextPlay < n ↔ ((b.number : Int) - u.nextPlay) % 65536 < n :=
    Int.toNat_lt (Int.emod_nonneg _ (by decide))
  simp only [UplinkRx.file, Nat.mod_eq_of_lt small, offset, List.any_eq_true, decide_eq_true_eq]
  rfl

set_option Elab.async false in
/-- Settles O29: the frame by the uplink's state and the places in use, the block by its form and its offset. -/
theorem downstreamFramesAreTaken : Obligations.DownstreamFramesAreTaken := by
  refine ⟨placesInUse_eq, fun r s inPeriod => ?frame, fun b s inPeriod small => ?block⟩
  case frame =>
    intro h
    refine ⟨fun up => ?_, fun lost => ?_, fun room => act_eq inPeriod (if_pos room), fun full => act_eq inPeriod (if_neg (Nat.not_lt.mpr full)),
      act_eq inPeriod rfl⟩
    · obtain ⟨-, heard⟩ | ⟨lost, -⟩ := hearFrame_cases s
      · exact heard
      · cases up.symm.trans lost
    · obtain ⟨up, -⟩ | ⟨-, heard⟩ := hearFrame_cases s
      · cases up.symm.trans lost
      · exact heard.trans rfl
  case block =>
    intro h wellFormed d count
    have formed : downWellFormed h.gen b = true ↔ wellFormed :=
      (hearFrame_touches s).gen (by decide) ▸ decide_eq_true_iff
    obtain ⟨ring, next⟩ := hearFrame_window s
    have offset : ((b.number : Int) - h.uplink.nextPlay) % 65536 = d := next ▸ rfl
    have files {u : UplinkRx} (good : wellFormed) (filed : h.uplink.file b = u) :
        exec (.downBlock b) s = .next { h with uplink := u } :=
      act_eq inPeriod ((if_pos (formed.mpr good)).trans (filed ▸ rfl))
    have file := UplinkRx.file_eq (u := h.uplink) small
    rw [offset] at file
    refine ⟨fun bad => act_eq inPeriod (if_neg (mt formed.mp bad)), fun good window fresh => ?_,
      fun good window held => ?_, fun good out early => ?_, fun good late => ?_⟩
    · refine files good ((file.trans (if_pos window)).trans ((if_neg ?_).trans ?_))
      · exact fun ⟨r, hr, e⟩ => fresh r (ring ▸ hr) e
      · rw [ring]
        rfl
    · exact files good ((file.trans (if_pos window)).trans (if_pos (ring ▸ held)))
    · exact files good (file.trans ((if_neg (not_lt.mpr out)).trans (if_pos early)))
    · exact files good (file.trans ((if_neg (not_lt.mpr (le_trans (by decide) late))).trans
        (if_neg (not_lt.mpr late))))

/-! Meter reports (09_metering.md, R164, R165 and R167; 10_management_messages.md, R176). -/

/-- What a bound point offers its surface link (R167). -/
def offerPoint (thresholds : Vector Nat 16) (s : State) (p : Nat × MeterPoint) : State :=
  match p.2.binding with
  | some (link, address) => offerUpdate link .meter address (segment thresholds p.2.peak) s
  | none => s

theorem offerSegments_eq (thresholds : Vector Nat 16) :
    ∀ (l : List (Nat × MeterPoint)) (s : State), offerSegments thresholds l s = l.foldl (offerPoint thresholds) s
  | [], _ => rfl
  | (_, _) :: rest, _ => offerSegments_eq thresholds rest _

theorem offerUpdate_surfaces {s t : State} (same : s.surfaces = t.surfaces) (link : Fin 4) (kind : UpdateKind)
    (address value : Nat) : (offerUpdate link kind address value s).surfaces = (offerUpdate link kind address value t).surfaces := by
  rw [offerUpdate, offerUpdate, apply_ite State.surfaces, apply_ite State.surfaces, State.onSurface_surfaces,
    State.onSurface_surfaces, same]

theorem offerSegments_surfaces (thresholds : Vector Nat 16) : ∀ (l : List (Nat × MeterPoint)) {s t : State},
    s.surfaces = t.surfaces → (offerSegments thresholds l s).surfaces = (offerSegments thresholds l t).surfaces
  | [], _, _, same => same
  | (_, p) :: rest, _, _, same => by
    rw [offerSegments, offerSegments]
    cases p.binding with
    | none => exact offerSegments_surfaces thresholds rest same
    | some b => exact offerSegments_surfaces thresholds rest (offerUpdate_surfaces same ..)

section Due

variable {s : State}

/-- The meter slot once the report of a boundary is formed. -/
def slotAfterReport (s : State) : Option SlotReport :=
  match formReport s.gen.blockNumber s.meter with
  | some r => some (handReport r s.mgmt.meterSlot)
  | none => s.mgmt.meterSlot

theorem slotAfterReport_none (h : activePoints s.meter = []) : slotAfterReport s = s.mgmt.meterSlot := by
  rw [slotAfterReport, formReport, if_pos h]

theorem slotAfterReport_some (h : activePoints s.meter ≠ []) :
    slotAfterReport s = some (handReport
      { config := s.meter.config, first := s.meter.coverStart, last := (s.gen.blockNumber + 65535) % 65536, merge := 1
        setupSeen := s.meter.setupSeen
        points := (activePoints s.meter).map fun p => ⟨p.1, p.2.peak, p.2.clipSeen⟩ } s.mgmt.meterSlot) := by
  rw [slotAfterReport, formReport, if_neg h]

/-- What METER_REPORT comes to: the report is handed on, then the bound points offer, then the meters start again. -/
theorem reportMeters_due (due : s.boundary.report = true) : ∃ u,
    reportMeters s = u.onMeter (MeterUnit.startAgain s.gen.blockNumber) ∧
      Touches [.surfaces] { s with
        boundary := { s.boundary with report := false }
        mgmt := { s.mgmt with meterSlot := slotAfterReport s } } u ∧
      u.surfaces = (offerSegments s.meter.thresholds (activePoints s.meter) s).surfaces := by
  refine ⟨_, (if_pos due).trans ?_, offerSegments_touches s.meter.thresholds (activePoints s.meter) _,
    offerSegments_surfaces _ _ rfl⟩
  rw [slotAfterReport]
  cases formReport s.gen.blockNumber s.meter <;> rfl

end Due

set_option Elab.async false in
/-- Settles O60: the report where one is due, by the active points and the slot it finds, and the promotion. -/
theorem meterReportsAreHandedOn : Obligations.MeterReportsAreHandedOn := by
  intro s powered active report
  refine ⟨fun due => ?report, fun none => run_eq powered (if_neg (ne_true_of_eq_false none)), run_eq powered rfl⟩
  obtain ⟨u, eq, offered, surfaces⟩ := reportMeters_due due
  have meter : u.meter = s.meter := offered.meter (by decide)
  have mgmt : u.mgmt = { s.mgmt with meterSlot := slotAfterReport s } := offered.mgmt (by decide)
  have slot : u.mgmt.meterSlot = slotAfterReport s := congrArg (·.meterSlot) mgmt
  refine ⟨_, run_eq powered eq, offered.boundary (by decide), rfl, rfl, rfl, congrArg (·.config) meter,
    congrArg (·.interval) meter, congrArg (·.thresholds) meter, fun n => ?points, offered.engine (by decide),
    offered.links (by decide), offered.rules (by decide), offered.device (by decide), offered.uplink (by decide),
    offered.gen (by decide), offered.clock (by decide), ?mgmt, fun none => ⟨?_, ?_⟩, fun live empty => ?_,
    fun old live full stale => ?_, fun old live full fresh => ?_,
    surfaces.trans (congrArg State.surfaces (offerSegments_eq ..))⟩
  case points => exact (mapEntries_getElem _ _ _ n.2).trans (meter ▸ rfl)
  case mgmt => exact mgmt.trans (congrArg (fun slot => { s.mgmt with meterSlot := slot }) slot.symm)
  · exact slot.trans (slotAfterReport_none none)
  · refine surfaces.trans ?_
    rw [show activePoints s.meter = [] from none]
    rfl
  · exact slot.trans ((slotAfterReport_some live).trans (empty ▸ rfl))
  · refine slot.trans ((slotAfterReport_some live).trans ?_)
    rw [full]
    exact congrArg some (if_pos stale)
  · refine slot.trans ((slotAfterReport_some live).trans ?_)
    rw [full]
    exact congrArg some (if_neg (ne_true_of_eq_false fresh))

/-! RATE_CHANGE (05_the_studio_clock.md, R102; 04_converter_links.md, R84). -/

/-- What a rate change makes of a link. -/
def Link.realigned (l : Link) : Link := if l.state = .off then l else freshAlign { l with frames := [] }

theorem realign_all (s : State) :
    let moving := linkNumbers.filter fun i => decide ((s.links[i.1]'i.2).state ≠ .off)
    linkNumbers.foldl (fun t i => realign i t) s = s.withLinks (s.links.map Link.realigned)
      (queued (moving.map fun i => .linkState i .align false (s.links[i.1]'i.2).pause 0 none (stampNow s))
        (moving.flatMap fun i => abortedReplies (s.links[i.1]'i.2)) s.mgmt) := by
  refine sweep_moving (moves := fun l => decide (l.state ≠ .off))
    (alarm := fun i l => .linkState i .align false l.pause 0 none (stampNow s)) (fun i L m off => if_pos (not_not.mp (of_decide_eq_false off)))
    (fun l off => if_pos (not_not.mp (of_decide_eq_false off))) fun i L m on => ?_
  have on : ¬ (L[i.1]'i.2).state = .off := of_decide_eq_true on
  have twice : ((s.withLinks L m).onLink i fun l => { l with frames := [] }).onLink i Link.aligned =
        (s.withLinks L m).onLink i fun l => { l with frames := [] }.aligned :=
      congrArg (s.withLinks · m) (modifyEntry_twice ..)
  rw [modifyEntry_eq (f := Link.realigned) (if_neg on)]
  refine (if_neg on).trans ?_
  rw [enterAlign, twice, entry_spec, postAlarm_spec]
  rfl

set_option Elab.async false in
/-- Settles O26: the links one after the other, after the rest of the part. -/
theorem rateChangeStartsAnew : Obligations.RateChangeStartsAnew := by
  refine fun s powered => ⟨fun r due => ?due,
    fun none => run_eq powered (by rw [changeRate, none])⟩
  intro moving
  refine run_eq powered ?_
  rw [changeRate, due]
  dsimp only
  by_cases free : s.clock.lock = .free
  · rw [if_pos free, if_pos free]
    exact (realign_all _).trans rfl
  · rw [if_neg free, if_neg free, postClockAlarm, postAlarm_spec]
    exact (realign_all _).trans (congrArg (fun g => State.withLinks _ g _) (queued_after ..))

/-! MODE_SET (11_operating_modes_and_the_fallback_store.md, R184, R185; 04_converter_links.md, R67). -/

theorem alignedState_setup (pause : Bool) : alignedState .setup pause = .paused := if_pos (.inl rfl)

theorem alignedState_operate (pause : Bool) : alignedState .operate pause = if pause then .paused else .active := by
  cases pause <;> rfl

theorem queued_silent {α : Type} (alarms : List Alarm) (l : List α) (m : Management) :
    queued alarms (l.flatMap fun _ => []) m = afterAlarms alarms m := by
  rw [List.flatMap_eq_nil_iff.mpr fun _ _ => rfl, queued, List.append_nil]

section Move

variable {s : State} {i : Fin 8} {L : Vector Link 8} {m : Management} {state : LinkState}

theorem moveAligned_goes {moved : Link → Link} (aligned : (L[i.1]'i.2).state = .active ∨ (L[i.1]'i.2).state = .paused)
    (asked : alignedState s.device.mode (L[i.1]'i.2).pause = state) (moves : state ≠ (L[i.1]'i.2).state)
    (goes : moved (L[i.1]'i.2) = movedTo state (L[i.1]'i.2)) :
    moveAligned i (s.withLinks L m) = s.withLinks (modifyEntry L i moved)
      (queued [.linkState i state (L[i.1]'i.2).degraded (L[i.1]'i.2).pause (L[i.1]'i.2).errors none (stampNow s)] [] m) := by
  subst asked
  rw [modifyEntry_eq goes, queued, List.append_nil]
  refine (moveAligned_spec ..).trans ?_
  simp only [Fin.getElem_fin, if_pos aligned, if_neg moves]
  rfl

/-- The links moved by a change of the mode: `moves` tells which, `target` their new state. -/
theorem moveLinks_eq {moves : Link → Bool} {moved : Link → Link} {target : Link → LinkState}
    (inPeriod : s.boundary.taken = false)
    (stays : ∀ l, moves l = false → moved l = l ∧
      ((l.state = .active ∨ l.state = .paused) → alignedState s.device.mode l.pause = l.state))
    (goes : ∀ l, moves l = true → moved l = movedTo (target l) l ∧ (l.state = .active ∨ l.state = .paused) ∧
      alignedState s.device.mode l.pause = target l ∧ target l ≠ l.state) :
    moveLinks s = s.withLinks (s.links.map moved)
      (afterAlarms ((linkNumbers.filter fun i => moves (s.links[i.1]'i.2)).map fun i =>
        .linkState i (target (s.links[i.1]'i.2)) (s.links[i.1]'i.2).degraded (s.links[i.1]'i.2).pause
          (s.links[i.1]'i.2).errors none s.gen.sampleCounter) s.mgmt) := by
  rw [← stampNow_inPeriod inPeriod]
  have swept := sweep_moving (f := moveAligned) (s := s) (replies := fun _ => []) (moves := moves) (moved := moved)
    (alarm := fun i l => .linkState i (target l) l.degraded l.pause l.errors none (stampNow s))
    (fun i L m still => if_neg fun ⟨aligned, moving⟩ => moving ((stays _ still).2 aligned).symm)
    (fun l still => (stays l still).1) fun i L m moving => by
      obtain ⟨place, aligned, asked, new⟩ := goes _ moving
      exact moveAligned_goes aligned asked new place
  exact swept.trans (congrArg (s.withLinks _) (queued_silent ..))

end Move

theorem pushReply_withLinks (tag kind : Byte) (a : Answer) (L : Vector Link 8) (alarms : List Alarm) (m : Management)
    (s : State) : pushReply tag kind a (s.withLinks L (afterAlarms alarms m)) =
      s.withLinks L (afterAlarms alarms { m with replies := m.replies ++ [⟨tag, kind, a⟩] }) :=
  pushReply_alarmed rfl

set_option Elab.async false in
/-- Settles O44: each mode by the mode in force; the links one after the other. -/
theorem modeSetMovesTheMode : Obligations.ModeSetMovesTheMode := by
  refine ⟨fun tag rest s h => ⟨fun setup => ?_, fun operate => ?setup⟩,
    fun tag rest s h => ⟨fun operate => ?_, fun setup => ?operate⟩, fun tag n rest s h large => ?range⟩
  · exact act_owned h (congrArg (·, Answer.ok) (if_pos setup))
  case setup =>
    intro released
    have released_eq : (fun r => if r.owner.isSome then releaseHold r else r) = released := by
      funext r
      simp only [releaseHold_eq, released]
      cases r.owner with
      | none => rfl
      | some link => cases r.automation <;> rfl
    have moved := moveLinks_eq (s := { taken rest s with
        engine := { s.engine with table := releaseAll s.engine.table }, device := { s.device with mode := .setup } })
      (moves := fun l => decide (l.state = .active)) (moved := fun l => if l.state = .active then movedTo .paused l else l)
      (target := fun _ => .paused)
      (fun l still => ⟨if_neg (of_decide_eq_false still),
        fun aligned => (alignedState_setup _).trans (aligned.resolve_left (of_decide_eq_false still)).symm⟩)
      (inPeriod := h.1.2) fun l moves => have active := of_decide_eq_true moves
        ⟨if_pos active, .inl active, alignedState_setup _, active ▸ nofun⟩
    have entered : ownModeSet (some 0) (taken rest s) = (enterSetup (taken rest s), Answer.ok) :=
      congrArg (·, Answer.ok) (if_neg (operate ▸ nofun))
    refine (act_takeRequest h tag 0x70 (ownModeSet (some 0))).trans (congrArg Host.Outcome.next ?_)
    have became : enterSetup (taken rest s) = _ := moved
    rw [entered, became, ← released_eq]
    exact (pushReply_withLinks ..).trans rfl
  · exact act_owned h (congrArg (·, Answer.ok) (if_pos operate))
  case operate =>
    intro after
    have asked (l : Link) (aligned : l.state = .active ∨ l.state = .paused) :
        alignedState .operate l.pause = after l := (alignedState_operate _).trans (if_pos aligned).symm
    have moved := moveLinks_eq (s := { taken rest s with device := { s.device with mode := .operate } })
      (moves := fun l => decide (after l ≠ l.state)) (moved := fun l => movedTo (after l) l) (target := after)
      (fun l still => have same := not_not.mp (of_decide_eq_false still)
        ⟨if_pos same.symm, fun aligned => (asked l aligned).trans same⟩)
      (inPeriod := h.1.2) fun l moves => have new := of_decide_eq_true moves
        have aligned : l.state = .active ∨ l.state = .paused := not_not.mp fun idle => new (if_neg idle)
        ⟨rfl, aligned, asked l aligned, new⟩
    have entered : ownModeSet (some 1) (taken rest s) = (enterOperate (taken rest s), Answer.ok) :=
      congrArg (·, Answer.ok) (if_neg (setup ▸ nofun))
    refine (act_takeRequest h tag 0x70 (ownModeSet (some 1))).trans (congrArg Host.Outcome.next ?_)
    have became : enterOperate (taken rest s) = _ := moved
    rw [entered, became]
    exact (pushReply_withLinks ..).trans rfl
  case range =>
    have unknown : modeOf n = none := by
      rw [modeOf, if_neg (Nat.ne_of_gt (lt_of_lt_of_le (by decide) large)),
        if_neg (Nat.ne_of_gt (lt_of_lt_of_le (by decide) large))]
    exact act_owned h (by rw [ownModeSet, Option.bind_some, unknown]; rfl)

/-! METER_POINTS, METER_CONFIG and METER_THRESHOLDS (09_metering.md, R161, R163, R166). -/

section Points

variable {raw : RawPoint} {p : MeterPoint} {b : MeterPointsBody} {written : List MeterPoint}

theorem readBinding_val {binding : Option (Fin 4 × Nat)} (small : ∀ x, binding = some x → x.2 < 4096) :
    readBinding (binding.map fun x => (x.1.val, x.2)) = some binding := by
  cases binding with
  | none => rfl
  | some x =>
    rw [Option.map_some, readBinding, surfaceOf_val, Option.bind_eq_bind, Option.bind_some,
      within_inside (Nat.zero_le _) (Nat.le_of_lt_succ (small x rfl))]
    rfl

theorem readBinding_large {x : Nat × Nat} (large : 4 ≤ x.1 ∨ 4096 ≤ x.2) : readBinding (some x) = none :=
  large.elim (fun h => bind_unread (surfaceOf_large h)) fun h => bind_unread_rest fun _ => bind_unread (within_outside (.inr h))

theorem readPointFields_val (peak : p.peak = 0) (clip : p.clipSeen = false)
    (small : ∀ x, p.binding = some x → x.2 < 4096) (e : raw =
      { active := p.active.toNat
        tap := match p.tap with
          | .source => 0
          | .destination => 1
        slot := p.slot.val, binding := p.binding.map fun x => (x.1.val, x.2) }) : readPointFields raw = some p := by
  have tap : tapOf (match p.tap with
      | .source => 0
      | .destination => 1) = some p.tap := by cases p.tap <;> rfl
  rw [e, readPointFields, yesNoOf_toNat, tap, slotOf_val, readBinding_val small]
  obtain ⟨_, _, _, _, _, _⟩ := p
  dsimp only at peak clip
  rw [peak, clip]
  rfl

theorem readPointFields_none (bad : 2 ≤ raw.active ∨ 2 ≤ raw.tap ∨ 528 ≤ raw.slot ∨
    ∃ x, raw.binding = some x ∧ (4 ≤ x.1 ∨ 4096 ≤ x.2)) : readPointFields raw = none :=
  match bad with
  | .inl h => bind_unread (yesNoOf_large h)
  | .inr (.inl h) => bind_unread_rest fun _ => bind_unread (tapOf_large h)
  | .inr (.inr (.inl h)) => bind_unread_rest fun _ => bind_unread_rest fun _ => bind_unread (slotOf_large h)
  | .inr (.inr (.inr ⟨_, e, h⟩)) =>
    bind_unread_rest fun _ => bind_unread_rest fun _ => bind_unread_rest fun _ => bind_unread (e ▸ readBinding_large h)

theorem readPoints_none (bad : b.points = [] ∨ 8 < b.points.length ∨ 64 < b.first + b.points.length ∨
    ∃ p ∈ b.points, readPointFields p = none) : readPoints b = none := by
  rw [readPoints]
  split_ifs with fits
  · obtain ⟨some, few, last⟩ := fits
    obtain empty | many | late | ⟨p, mem, unread⟩ := bad
    · exact absurd some (empty ▸ nofun)
    · exact absurd few (not_le.mpr many)
    · exact absurd last (not_le.mpr late)
    · exact readEach_none mem unread
  · rfl

theorem writePoints_written {first n : Nat} (points : Vector MeterPoint 64) (h : n < 64) (after : first ≤ n)
    (before : n < first + written.length) : written[n - first]? = some (writePoints first written points)[n] := by
  have found : written[n - first]? = some (written[n - first]'(Nat.sub_lt_left_of_lt_add after before)) :=
    List.getElem?_eq_getElem _
  rw [writePoints, tabulate_getElem, if_pos after, found, Option.getD_some]

theorem writePoints_kept {first n : Nat} (points : Vector MeterPoint 64) (h : n < 64)
    (outside : n < first ∨ first + written.length ≤ n) : (writePoints first written points)[n] = points[n] := by
  rw [writePoints, tabulate_getElem, Vector.getElem?_eq_getElem h, Option.getD_some, ite_eq_right_iff]
  intro after
  rw [List.getElem?_eq_none (Nat.le_sub_of_add_le' (outside.resolve_left (not_lt.mpr after))), Option.getD_none]

end Points

section Thresholds

variable {l : List Nat}

theorem rising_iff (l : List Nat) : (l.zip l.tail).all (fun p => decide (p.1 ≤ p.2)) = true ↔ l.Pairwise (· ≤ ·) := by
  rw [← List.isChain_iff_pairwise]
  match l with
  | [] => exact ⟨fun _ => .nil, fun _ => rfl⟩
  | [x] => exact ⟨fun _ => .singleton x, fun _ => rfl⟩
  | x :: y :: rest =>
    rw [List.isChain_cons_cons, List.isChain_iff_pairwise, ← rising_iff (y :: rest)]
    exact (Bool.and_eq_true ..).to_iff.trans (and_congr_left' decide_eq_true_iff)

theorem thresholdsOk_iff (full : l.length = 16) :
    thresholdsOk l = true ↔ (∀ x ∈ l, x ≤ 8388608) ∧ l.Pairwise (· ≤ ·) := by
  rw [thresholdsOk, Bool.and_eq_true, Bool.and_eq_true, rising_iff, List.all_eq_true, decide_eq_true_iff]
  exact ⟨fun h => ⟨fun x m => of_decide_eq_true (h.1.2 x m), h.2⟩, fun h => ⟨⟨full, fun x m => decide_eq_true (h.1 x m)⟩, h.2⟩⟩

theorem tabulate_toList (full : l.length = 16) : (tabulate 16 fun k => l.getD k 0).toList = l := by
  refine List.ext_getElem (by rw [Vector.length_toList, full]) fun k _ short => ?_
  rw [Vector.getElem_toList, tabulate_getElem, List.getD_eq_getElem _ _ short]

end Thresholds

set_option Elab.async false in
/-- Settles O43: the points by what their fields give, the interval and the thresholds by their range. -/
theorem meterRequests : Obligations.MeterRequests := by
  refine ⟨fun tag b points rest s h raw fresh some few last => ?points, fun tag b rest s h bad => ?outside,
    fun tag n rest s h => ⟨fun low high => ?_, fun outside => ?_⟩, fun tag l rest s h full => ?thresholds⟩
  case points =>
    have length : b.points.length = points.length := raw ▸ List.length_map _
    have read : readPoints b = Option.some points := by
      refine (if_pos (length ▸ ⟨some, few, last⟩)).trans (readEach_eq_some.mpr ?_)
      rw [raw, List.map_map]
      refine List.map_congr_left fun p mem => ?_
      obtain ⟨peak, clip, small⟩ := fresh p mem
      exact readPointFields_val peak clip small rfl
    exact ⟨writePoints b.first points s.meter.points, act_owned h (by rw [ownMeterPoints, read]; rfl),
      fun n short => ⟨writePoints_written _ short, writePoints_kept _ short⟩⟩
  case outside =>
    have read : readPoints b = none := readPoints_none (bad.imp_right fun bad => bad.imp_right fun bad =>
      bad.imp_right fun ⟨p, mem, bad⟩ => ⟨p, mem, readPointFields_none bad⟩)
    exact act_owned h (by rw [ownMeterPoints, read]; rfl)
  · exact act_owned h (by rw [ownMeterConfig, Option.bind_some, within_inside low high]; rfl)
  · exact act_owned h (by rw [ownMeterConfig, Option.bind_some, within_outside (outside.imp Nat.lt_one_iff.mpr id)]; rfl)
  case thresholds =>
    refine ⟨fun rising small => ⟨_, tabulate_toList full, act_owned h (if_pos ((thresholdsOk_iff full).mpr ⟨small, rising⟩))⟩,
      fun bad => act_owned h (if_neg fun ok => ?_)⟩
    obtain ⟨small, rising⟩ := (thresholdsOk_iff full).mp ok
    exact bad.elim (· rising) fun ⟨x, mem, large⟩ => absurd (small x mem) (not_le.mpr large)

/-! The state after reset (01_slots_periods_and_blocks.md, R11). -/

theorem link_reset_sound : LinkSound Link.reset where
  errors := Nat.zero_le _
  run := Nat.zero_le _
  missing := Nat.zero_le _
  holdOff := Nat.zero_le _
  off _ := ⟨rfl, rfl, rfl⟩
  fault h := LinkState.noConfusion h
  align _ := rfl
  quiet _ := List.forall_mem_nil _
  ages := List.forall_mem_nil _
  order := .nil
  inTurn := .nil
  stopped _ _ h := absurd h.symm (Option.some_ne_none _)
  windows := List.forall_mem_nil _
  entered h := Bool.noConfusion h

theorem law_reset_inRange (k : Nat) (h : k < 129) : InRange RuleUnit.reset.law[k] :=
  by
  rw [RuleUnit.reset, tabulate_getElem, InRange]
  omega

theorem reset_links (i : Fin 8) : State.reset.links[i.1]'i.2 = Link.reset := Vector.getElem_replicate i.2
theorem reset_surfaces (i : Fin 4) : State.reset.surfaces[i.1]'i.2 = Surface.reset := Vector.getElem_replicate i.2

theorem reset_patchSound : PatchSound State.reset where
  sorted := .nil
  limits := ⟨Nat.zero_le _, fun _ => Nat.zero_le _⟩
  edits := Nat.zero_le _
  distinct := .nil
  fits := List.forall_mem_nil _
  accepted h := Bool.noConfusion h
  store := trivial

theorem reset_ringSound : RingSound State.reset where
  next := rfl
  count := Nat.zero_le _
  distinct := .nil
  window := List.forall_mem_nil _

theorem reset_queuesSound : QueuesSound State.reset where
  alarms := .nil
  events := Nat.zero_le _
  pendingLoss := Nat.zero_le _
  frames := Nat.zero_le _
  updates i := reset_surfaces i ▸ ⟨Nat.zero_le _, .nil⟩

theorem reset_gainsSound : GainsSound State.reset where
  records := List.forall_mem_nil _
  settled := List.forall_mem_nil _
  automation := List.forall_mem_nil _
  edits _ h := absurd h List.not_mem_nil
  valid _ h := Store.noConfusion h
  writing _ _ _ h := Store.noConfusion h
  law := law_reset_inRange

theorem reset_frameSound : FrameSound State.reset where
  size := .inr (.inl rfl)
  position := .inl (by decide)
  playback := ⟨by decide, fun _ => by decide⟩
  records := ⟨by decide, fun _ => by decide⟩
  pending _ h := absurd h.symm (Option.some_ne_none _)
  due _ h := absurd h.symm (Option.some_ne_none _)
  idle _ := rfl
  drained _ := rfl

set_option Elab.async false in
/-- Settles O12, law by law: every list is empty and every count 0 in the state after reset. -/
theorem resetStateIsSound : Obligations.ResetStateIsSound :=
  ⟨reset_patchSound, List.forall_mem_nil _, reset_ringSound, fun i => reset_links i ▸ link_reset_sound, Nat.zero_le 16, reset_queuesSound,
    reset_gainsSound, reset_frameSound⟩

/-! RULE_WRITE, RULE_BLOCKS and LAW_WRITE (08_event_rules_and_fader_laws.md, R139, R140, R156). -/

section Actions

/-- The fields of a RULE_WRITE action lie in their ranges (R138, R140). -/
def ActionInRange (a : RawAction) : Prop := match a with
  | .forward label => label ≤ 65535
  | .driveGain src dst ramp => src < 528 ∧ dst < 528 ∧ ramp < 8
  | .nudgeGain src dst step => src < 528 ∧ dst < 528 ∧ 1 ≤ step ∧ step ≤ 65535
  | .toggleMute src dst => src < 528 ∧ dst < 528
  | .echo link address => link < 4 ∧ address < 4096
  | .unassigned _ => False

/-- The action entry that carries an action. -/
def rawAction (a : Action) : RawAction := match a with
  | .forward label => .forward label
  | .driveGain src dst ramp => .driveGain src.val dst.val ramp.val
  | .nudgeGain src dst step => .nudgeGain src.val dst.val step
  | .toggleMute src dst => .toggleMute src.val dst.val
  | .echo link address => .echo link.val address

theorem readActionEntry_raw : ∀ a : Action, ActionInRange (rawAction a) → readActionEntry (rawAction a) = some a
  | .forward _, h => congrArg (Option.map _) (within_inside (Nat.zero_le _) h)
  | .driveGain src dst ramp, _ => by rw [rawAction, readActionEntry, slotOf_val, slotOf_val, rampOf_val]; rfl
  | .nudgeGain src dst step, ⟨_, _, low, high⟩ => by
    rw [rawAction, readActionEntry, slotOf_val, slotOf_val, within_inside low high]; rfl
  | .toggleMute src dst, _ => by rw [rawAction, readActionEntry, slotOf_val, slotOf_val]; rfl
  | .echo link address, h => by
    rw [rawAction, readActionEntry, surfaceOf_val, within_inside (Nat.zero_le _) (Nat.le_of_lt_succ h.2)]; rfl

theorem readActionEntry_outside : ∀ a : RawAction, ¬ ActionInRange a → readActionEntry a = none
  | .forward _, h => congrArg (Option.map _) (within_outside (.inr (not_le.mp h)))
  | .driveGain _ _ _, h => by
    obtain h | h | h := not_and_or.mp h |>.imp_right not_and_or.mp
    · exact bind_unread (slotOf_large (not_lt.mp h))
    · exact bind_unread_rest fun _ => bind_unread (slotOf_large (not_lt.mp h))
    · exact bind_unread_rest fun _ => bind_unread_rest fun _ => bind_unread (rampOf_large (not_lt.mp h))
  | .nudgeGain _ _ _, h => by
    obtain h | h | h := not_and_or.mp h |>.imp_right not_and_or.mp
    · exact bind_unread (slotOf_large (not_lt.mp h))
    · exact bind_unread_rest fun _ => bind_unread (slotOf_large (not_lt.mp h))
    · exact bind_unread_rest fun _ => bind_unread_rest fun _ => bind_unread
        (within_outside ((not_and_or.mp h).imp not_le.mp not_le.mp))
  | .toggleMute _ _, h => (not_and_or.mp h).elim (fun h => bind_unread (slotOf_large (not_lt.mp h)))
    fun h => bind_unread_rest fun _ => bind_unread (slotOf_large (not_lt.mp h))
  | .echo _ _, h => (not_and_or.mp h).elim (fun h => bind_unread (surfaceOf_large (not_lt.mp h)))
    fun h => bind_unread_rest fun _ => bind_unread (within_outside (.inr (Nat.lt_of_succ_le (not_lt.mp h))))
  | .unassigned _, _ => rfl

end Actions

section Kinds

variable {n : Nat}

theorem kindsOf_some (small : n < 32) (even : n % 2 = 0) : ∃ kinds, kindsOf n = some kinds ∧
    (MessageKind.position ∈ kinds ↔ n.testBit 1) ∧ (MessageKind.touch ∈ kinds ↔ n.testBit 2) ∧
    (MessageKind.press ∈ kinds ↔ n.testBit 3) ∧ (MessageKind.turn ∈ kinds ↔ n.testBit 4) := by
  refine ⟨_, if_pos ⟨by omega, Nat.div_eq_of_lt small, even⟩, ?_⟩
  clear even
  revert n
  decide

theorem kindsOf_none (bad : 32 ≤ n ∨ n % 2 = 1) : kindsOf n = none := if_neg (by omega)

end Kinds

section Rules

variable {b : RuleWriteBody}

theorem readRule_none (bad : 512 ≤ b.rule ∨ 2 ≤ b.valid ∨ 32 ≤ b.kinds ∨ b.kinds % 2 = 1 ∨ 4096 ≤ b.address ∨
    4096 ≤ b.mask ∨ 256 ≤ b.deadband ∨ 4 < b.actions.length ∨ ∃ a ∈ b.actions, ¬ ActionInRange a) : readRule b = none := by
  obtain h | h | h | h | h | h | h | h | ⟨a, mem, h⟩ := bad
  · exact bind_unread (dif_neg (not_lt.mpr h))
  · exact bind_unread_rest fun _ => bind_unread (yesNoOf_large h)
  · exact bind_unread_rest fun _ => bind_unread_rest fun _ => bind_unread (kindsOf_none (.inl h))
  · exact bind_unread_rest fun _ => bind_unread_rest fun _ => bind_unread (kindsOf_none (.inr h))
  · exact bind_unread_rest fun _ => bind_unread_rest fun _ => bind_unread_rest fun _ => bind_unread (within_outside (.inr h))
  · exact bind_unread_rest fun _ => bind_unread_rest fun _ => bind_unread_rest fun _ => bind_unread_rest fun _ =>
      bind_unread (within_outside (.inr h))
  · exact bind_unread_rest fun _ => bind_unread_rest fun _ => bind_unread_rest fun _ => bind_unread_rest fun _ =>
      bind_unread_rest fun _ => bind_unread (within_outside (.inr h))
  · exact bind_unread_rest fun _ => bind_unread_rest fun _ => bind_unread_rest fun _ => bind_unread_rest fun _ =>
      bind_unread_rest fun _ => bind_unread_rest fun _ => if_neg (not_le.mpr h)
  · exact bind_unread_rest fun _ => bind_unread_rest fun _ => bind_unread_rest fun _ => bind_unread_rest fun _ =>
      bind_unread_rest fun _ => bind_unread_rest fun _ => (em (b.actions.length ≤ 4)).elim
        (fun few => (if_pos few).trans (bind_unread (readEach_none mem (readActionEntry_outside a h)))) fun many => if_neg many

theorem readRule_some {n : Fin 512} {valid : Bool} {kinds : List MessageKind} {actions : List Action}
    (rule : b.rule = n.val) (isValid : b.valid = valid.toNat) (read : kindsOf b.kinds = some kinds)
    (address : b.address ≤ 4095) (mask : b.mask ≤ 4095) (deadband : b.deadband ≤ 255) (few : actions.length ≤ 4)
    (raw : b.actions = actions.map rawAction) (inside : ∀ a ∈ b.actions, ActionInRange a) :
    readRule b = some (n, ⟨valid, kinds, b.address, b.mask, b.deadband, none, actions⟩) := by
  have each : readEach readActionEntry b.actions = some actions := readEach_eq_some.mpr (by
    rw [raw, List.map_map]
    exact List.map_congr_left fun a mem => readActionEntry_raw a (inside _ (raw ▸ List.mem_map_of_mem mem)))
  rw [readRule, rule, ruleOf_val, isValid, yesNoOf_toNat, read, within_inside (Nat.zero_le _) address,
    within_inside (Nat.zero_le _) mask, within_inside (Nat.zero_le _) deadband, each]
  exact if_pos (by rw [raw, List.length_map]; exact few)

end Rules

section Blocks

variable {u : RuleUnit} {b : RuleBlocksBody}

theorem RuleBlock.overlaps_iff (x y : RuleBlock) :
    x.overlaps y = true ↔ ∃ n, (x.start ≤ n ∧ n < x.start + x.count) ∧ y.start ≤ n ∧ n < y.start + y.count := by
  rw [RuleBlock.overlaps, decide_eq_true_iff]
  exact ⟨fun _ => ⟨max x.start y.start, by omega⟩, fun ⟨n, _⟩ => by omega⟩

theorem readBlock_some {i : Fin 4} (link : b.link = i.val) (first : b.start ≤ 511) (last : b.start + b.count ≤ 512)
    (clear : ∀ j : Fin 4, j ≠ i → ∀ n, b.start ≤ n → n < b.start + b.count →
      ¬ ((u.blocks[j.1]'j.2).start ≤ n ∧ n < (u.blocks[j.1]'j.2).start + (u.blocks[j.1]'j.2).count)) :
    readBlock u b = some (i, ⟨b.start, b.count⟩) := by
  rw [readBlock, link, surfaceOf_val]
  refine if_pos ⟨first, (Nat.le_add_left ..).trans last, last, List.all_eq_true.mpr fun j _ => ?_⟩
  rw [Bool.or_eq_true, decide_eq_true_iff, Bool.not_eq_true', ← Bool.not_eq_true, RuleBlock.overlaps_iff]
  exact or_iff_not_imp_left.mpr fun other ⟨n, ⟨low, high⟩, held⟩ => clear j other n low high held

theorem readBlock_outside (bad : 4 ≤ b.link ∨ 511 < b.start ∨ 512 < b.count ∨ 512 < b.start + b.count) :
    readBlock u b = none :=
  bad.elim (fun h => bind_unread (surfaceOf_large h)) fun _ => bind_unread_rest fun _ => if_neg (by omega)

theorem readBlock_shared {i j : Fin 4} {n : Nat} (link : b.link = i.val) (other : j ≠ i) (low : b.start ≤ n)
    (high : n < b.start + b.count) (held : (u.blocks[j.1]'j.2).start ≤ n ∧ n < (u.blocks[j.1]'j.2).start + (u.blocks[j.1]'j.2).count) :
    readBlock u b = none := by
  rw [readBlock, link, surfaceOf_val]
  refine if_neg fun ⟨_, _, _, clear⟩ => ?_
  have alone := List.all_eq_true.mp clear j (mem_surfaceNumbers j)
  rw [decide_eq_false other, Bool.false_or, Bool.not_eq_true', ← Bool.not_eq_true, RuleBlock.overlaps_iff] at alone
  exact alone ⟨n, ⟨low, high⟩, held⟩

end Blocks

section Law

variable {start : Nat} {entries : List Int} {law : Vector Int 129} {k : Nat} (h : k < 129)

theorem writeLaw_written (full : entries.length = 8) (low : start ≤ k) (high : k < start + 8) :
    entries[k - start]? = some (writeLaw start entries law)[k] := by
  have short : k - start < entries.length := full ▸ Nat.sub_lt_left_of_lt_add low high
  rw [writeLaw, tabulate_getElem, if_pos ⟨low, high⟩, List.getD_eq_getElem _ _ short, List.getElem?_eq_getElem short]

theorem writeLaw_kept (outside : k < start ∨ start + 8 ≤ k) : (writeLaw start entries law)[k] = law[k] := by
  rw [writeLaw, tabulate_getElem, if_neg (by omega), Vector.getElem?_eq_getElem h, Option.getD_some]

end Law

section Setup

variable {s : State} (setup : s.device.mode = .setup)
include setup

theorem ownRuleWrite_range {b : RuleWriteBody} (unread : readRule b = none) :
    ownRuleWrite (some b) s = (s, Answer.range) := (if_neg (setup ▸ nofun)).trans (by rw [unread])

theorem ownRuleWrite_ok {b : RuleWriteBody} {n : Fin 512} {rule : Rule} (read : readRule b = some (n, rule)) :
    ownRuleWrite (some b) s = (s.onRules fun u => { u with rules := modifyEntry u.rules n fun _ => rule }, Answer.ok) :=
  (if_neg (setup ▸ nofun)).trans (by rw [read])

theorem ownRuleBlocks_range {b : RuleBlocksBody} (unread : readBlock s.rules b = none) :
    ownRuleBlocks (some b) s = (s, Answer.range) := (if_neg (setup ▸ nofun)).trans (by rw [unread])

theorem ownRuleBlocks_ok {b : RuleBlocksBody} {i : Fin 4} {block : RuleBlock} (read : readBlock s.rules b = some (i, block)) :
    ownRuleBlocks (some b) s =
      (s.onRules fun u => { u with blocks := modifyEntry u.blocks i fun _ => block }, Answer.ok) :=
  (if_neg (setup ▸ nofun)).trans (by rw [read])

end Setup

set_option Elab.async false in
/-- Settles O34: each request by the mode, then by what its fields give. -/
theorem ruleUnitWrites : Obligations.RuleUnitWrites := by
  refine ⟨fun tag b rest s h => ?rule, fun tag b rest s h => ?blocks, fun tag b rest s h => ?law⟩
  case rule =>
    intro inRange received
    refine ⟨fun operate => act_owned h (if_pos operate),
      fun setup bad => act_owned h (ownRuleWrite_range (s := taken rest s) setup (readRule_none bad)),
      fun n valid actions setup rule isValid small even address mask deadband few raw inside => ?_⟩
    obtain ⟨kinds, read, members⟩ := kindsOf_some small even
    exact ⟨kinds, act_owned h (ownRuleWrite_ok (s := taken rest s) setup (readRule_some rule isValid read (Nat.le_of_lt_succ address)
      (Nat.le_of_lt_succ mask) (Nat.le_of_lt_succ deadband) few raw inside)), members⟩
  case blocks =>
    exact ⟨fun operate => act_owned h (if_pos operate),
      fun i setup link first last clear =>
        act_owned h (ownRuleBlocks_ok (s := taken rest s) setup (readBlock_some (u := s.rules) link first last clear)),
      fun setup bad => act_owned h (ownRuleBlocks_range (s := taken rest s) setup (readBlock_outside bad)),
      fun i j n setup link other low high first last =>
        act_owned h (ownRuleBlocks_range (s := taken rest s) setup
          (readBlock_shared (u := s.rules) link other low high ⟨first, last⟩))⟩
  case law =>
    refine ⟨fun operate => act_owned h (if_pos operate), fun setup first full inside => ⟨_, act_owned h
      ((if_neg (setup ▸ nofun)).trans (if_pos ⟨first, full, List.all_eq_true.mpr fun x mem => decide_eq_true (inside x mem)⟩)),
      fun k short => ⟨writeLaw_written short full, writeLaw_kept short⟩⟩,
      fun setup bad => act_owned h ((if_neg (setup ▸ nofun)).trans (if_neg fun ⟨first, _, inside⟩ => ?_))⟩
    obtain late | ⟨x, mem, outside⟩ := bad
    · exact absurd first (not_le.mpr late)
    · exact outside (of_decide_eq_true (p := _ ∧ _) (List.all_eq_true.mp inside x mem))

/-! LINK_CONFIG (04_converter_links.md, R75). -/

section Fields

variable {i : Fin 8} {enable : Bool} {mask : BitVec 32} {recovery : Recovery}

/-- The code of a recovery mode (R75). -/
def recoveryCode (recovery : Recovery) : Nat := match recovery with
  | .auto => 0
  | .manual => 1
  | .park => 2

theorem readLinkFields_fields :
    readLinkFields ⟨i.val, enable.toNat, mask, recoveryCode recovery⟩ = some (i, enable, mask, recovery) := by
  have mode : recoveryOf (recoveryCode recovery) = some recovery := by cases recovery <;> rfl
  rw [readLinkFields, linkOf_val, yesNoOf_toNat, mode]
  rfl

theorem readLinkFields_outside {b : LinkConfigBody} : 8 ≤ b.link ∨ 2 ≤ b.enable ∨ 3 ≤ b.recovery → readLinkFields b = none
  | .inl h => bind_unread (linkOf_large h)
  | .inr (.inl h) => bind_unread_rest fun _ => bind_unread (yesNoOf_large h)
  | .inr (.inr h) => bind_unread_rest fun _ => bind_unread_rest fun _ => bind_unread (recoveryOf_large h)

end Fields

section Configured

variable (i : Fin 8) (enable : Bool) (mask : BitVec 32) (recovery : Recovery) (s : State)

/-- A link with the fields of a LINK_CONFIG stored. -/
def Link.stored (l : Link) : Link := { l with enable := enable, mask := mask, recovery := recovery }

/-- The part once LINK_CONFIG has stored its fields and moved the link (R75). -/
def configured : State :=
  let t := s.onLink i (Link.stored enable mask recovery)
  match (s.links[i.1]'i.2).state with
  | .off => if enable then enterAlign i t else t
  | .fault => if enable then applyRecovery i t else switchOff i t
  | .align => if enable then t else switchOff i t
  | .active => if enable then t else switchOff i t
  | .paused => if enable then t else switchOff i t

theorem ownLinkConfig_fields : ownLinkConfig (some ⟨i.val, enable.toNat, mask, recoveryCode recovery⟩) s =
    (configured i enable mask recovery s, Answer.okData (.linkState ((configured i enable mask recovery s).links[i.1]'i.2).state)) := by
  rw [ownLinkConfig, Option.bind_some, readLinkFields_fields]
  rfl

end Configured

section Moves

variable {i : Fin 8} {enable : Bool} {mask : BitVec 32} {recovery : Recovery} {s : State}

theorem onLink_onLink (i : Fin 8) (f g : Link → Link) (s : State) :
    (s.onLink i f).onLink i g = s.onLink i fun l => g (f l) :=
  congrArg (fun links => { s with links := links }) (modifyEntry_twice ..)

/-- Entry to ALIGN of a link that `f` leaves (R65, R82, R83). -/
theorem enterAlign_onLink (f : Link → Link) :
    let l := f (s.links[i.1]'i.2)
    enterAlign i (s.onLink i f) = { s with
      links := s.links.set i.1 (freshAlign l) i.2
      mgmt := afterAlarms [.linkState i .align false l.pause 0 none (stampNow s)]
        { s.mgmt with replies := s.mgmt.replies ++ abortedReplies l } } := by
  rw [enterAlign, onLink_onLink, entry_spec, postAlarm_spec]
  rfl

/-- Entry to OFF of a link that `f` leaves in its state, with its command in flight (R64, R82 to R84, R89). -/
theorem enterOff_onLink {f : Link → Link} {leaves : Prop} [Decidable leaves] {after : LinkState}
    (off : after = .off) (state : (f (s.links[i.1]'i.2)).state = (s.links[i.1]'i.2).state)
    (received : leaves ↔ (s.links[i.1]'i.2).state.receives = true) :
    let l := f (s.links[i.1]'i.2)
    let following := (s.clock.lock = .pullIn ∨ s.clock.lock = .locked) ∧ s.clock.selected = some (.link i)
    enterOff i (s.onLink i f) = { s with
      links := s.links.set i.1 { l.switchedOff with relay := .idle } i.2
      clock := if leaves then
          if following then heldOver (.link i) s.clock
          else { s.clock with candidates := withoutReference (.link i) s.clock }
        else s.clock
      mgmt := afterAlarms
        ([.linkState i after false l.pause 0 none (stampNow s)] ++
          if leaves ∧ following then [.clockState .holdover (some (.link i)) s.gen.rate s.clock.heldDeviation (stampNow s)]
          else [])
        { s.mgmt with replies := s.mgmt.replies ++ abortedReplies l } } := by
  subst off
  intro l following
  have before : ((s.onLink i f).links[i.1]'i.2).state = (s.links[i.1]'i.2).state := by
    rw [State.onLink_links, modifyEntry_same, state]
  rw [enterOff, onLink_onLink, entry_spec, postAlarm_spec]
  by_cases receives : leaves
  · rw [leaveReference_spec i _ _ (before ▸ received.mp receives) (congrArg LinkState.receives (congrArg Link.state (modifyEntry_same ..))),
      if_pos receives, afterAlarms_append]
    by_cases followed : following
    · rw [if_pos followed, if_pos followed, if_pos (And.intro receives followed)]
      rfl
    · rw [if_neg followed, if_neg followed, if_neg (c := leaves ∧ following) fun h => followed h.2]
      rfl
  · rw [if_neg receives, if_neg (c := leaves ∧ following) fun h => receives h.1]
    exact (if_neg fun h => receives (received.mpr
      ((congrArg LinkState.receives before).symm.trans (Bool.and_eq_true_iff.mp h).1))).trans rfl

/-- The recovery mode that a LINK_CONFIG stores is the one that acts. -/
theorem applyRecovery_stored (i : Fin 8) (mask : BitVec 32) (recovery : Recovery) (s : State) :
    let t := s.onLink i (Link.stored true mask recovery)
    applyRecovery i t = match recovery with
      | .park => park i (t.onLink i fun l => { l with frames := [] })
      | .auto => if 2048 ≤ (s.links[i.1]'i.2).holdOff then enterAlign i t else t
      | .manual => t := by
  intro t
  have link : (t.links[i.1]'i.2) = Link.stored true mask recovery (s.links[i.1]'i.2) :=
    modifyEntry_same ..
  rw [applyRecovery, Fin.getElem_fin, link]
  rfl

/-- Where LINK_CONFIG leaves a link: it stays in its state, starts ALIGN or goes to OFF. -/
theorem configured_moves (i : Fin 8) (enable : Bool) (mask : BitVec 32) (recovery : Recovery) (s : State) :
    let l := s.links[i.1]'i.2
    let after := configuredState enable recovery l
    let stored := Link.stored enable mask recovery
    after = l.state ∧ configured i enable mask recovery s = s.onLink i stored ∨
      after = .align ∧ l.state ≠ .align ∧ configured i enable mask recovery s = enterAlign i (s.onLink i stored) ∨
      after = .off ∧ l.state ≠ .off ∧ configured i enable mask recovery s =
        enterOff i (s.onLink i fun l => { stored l with enable := false, frames := [] }) := by
  intro l after stored
  have disabled : switchOff i (s.onLink i (Link.stored false mask recovery)) =
      enterOff i (s.onLink i fun l => { Link.stored false mask recovery l with enable := false, frames := [] }) :=
    congrArg (enterOff i) (onLink_onLink ..)
  have isState : (s.links[i.1]'i.2).state = l.state := rfl
  dsimp only [after, configured, configuredState, Fin.getElem_fin]
  rw [isState]
  cases state : l.state with
  | off => cases enable with
    | false => exact .inl ⟨rfl, rfl⟩
    | true => exact .inr (.inl ⟨rfl, LinkState.noConfusion, rfl⟩)
  | fault => cases enable with
    | false => exact .inr (.inr ⟨rfl, LinkState.noConfusion, disabled⟩)
    | true => cases recovery with
      | park => exact .inr (.inr ⟨rfl, LinkState.noConfusion, (applyRecovery_stored ..).trans (congrArg (enterOff i)
          ((congrArg (State.onLink i _) (onLink_onLink ..)).trans (onLink_onLink ..)))⟩)
      | manual => exact .inl ⟨rfl, applyRecovery_stored ..⟩
      | auto =>
        by_cases late : 2048 ≤ l.holdOff
        · exact .inr (.inl ⟨if_pos late, LinkState.noConfusion, (applyRecovery_stored ..).trans (if_pos late)⟩)
        · exact .inl ⟨if_neg late, (applyRecovery_stored ..).trans (if_neg late)⟩
  | align | active | paused => cases enable with
    | false => exact .inr (.inr ⟨rfl, LinkState.noConfusion, disabled⟩)
    | true => exact .inl ⟨rfl, rfl⟩

end Moves

set_option Elab.async false in
/-- Settles O37: what LINK_CONFIG leaves, as the link stays, starts ALIGN or goes to OFF. -/
theorem linkConfigActsByState : Obligations.LinkConfigActsByState := by
  refine ⟨fun tag i enable mask recovery rest s => ?move, fun tag b rest s h outside => act_owned h ?range⟩
  case range => rw [ownLinkConfig, Option.bind_some, readLinkFields_outside outside]; rfl
  case move =>
    intro code c l stored after left leaves following stamp h
    have answers {t : State} {alarms : List Alarm} {m : Management}
        (moves : configured i enable mask recovery (taken rest s) = t) (lands : (t.links[i.1]'i.2).state = after)
        (posts : t.mgmt = afterAlarms alarms m) : exec c s = .next { t with
          mgmt := afterAlarms alarms
            { m with replies := m.replies ++ [⟨tag, 0x40#8, Answer.okData (.linkState after)⟩] } } := by
      refine (act_takeRequest h ..).trans (congrArg _ ((congrArg (fun r => pushReply tag 0x40 r.2 r.1)
        (ownLinkConfig_fields i enable mask recovery (taken rest s))).trans ?_))
      rw [moves, lands]
      exact pushReply_alarmed posts
    have present : stampNow (taken rest s) = stamp := stampNow_inPeriod (s := taken rest s) h.1.2
    obtain ⟨(stays : after = l.state), moves⟩ | ⟨(aligns : after = .align), (other : l.state ≠ .align), moves⟩ |
      ⟨(off : after = .off), (other : l.state ≠ .off), moves⟩ := configured_moves i enable mask recovery (taken rest s)
    · have same : left = stored := if_pos stays
      have remains : ¬ leaves := fun ⟨off, receives⟩ => by
        rw [stays.symm.trans off] at receives
        exact receives.elim LinkState.noConfusion fun r => r.elim LinkState.noConfusion LinkState.noConfusion
      rw [same, if_neg remains, if_pos stays, if_pos stays, List.append_nil]
      exact ⟨stays.symm, answers (alarms := []) moves ((congrArg Link.state (modifyEntry_same ..)).trans stays.symm) rfl⟩
    · have moved : ¬ after = l.state := fun stays => other (stays.symm.trans aligns)
      have same : left = freshAlign stored := (if_neg moved).trans (if_pos aligns)
      have remains : ¬ leaves := fun ⟨off, _⟩ => LinkState.noConfusion (aligns.symm.trans off)
      rw [enterAlign_onLink, present, ← aligns] at moves
      rw [same, if_neg remains, if_neg moved, if_neg moved, if_neg (c := leaves ∧ following) fun h => remains h.1, List.append_nil]
      exact ⟨aligns.symm, answers moves ((congrArg Link.state (Vector.getElem_set_self ..)).trans aligns.symm) rfl⟩
    · have moved : ¬ after = l.state := fun stays => other (stays.symm.trans off)
      have same : left = { stored with state := .off, enable := false, errors := 0, degraded := false, fresh := false, relay := .idle, frames := [] } := (if_neg moved).trans (if_neg (off ▸ LinkState.noConfusion))
      have received : leaves ↔ l.state.receives = true := (and_iff_right off).trans (receives_iff _).symm
      rw [enterOff_onLink (s := taken rest s) off rfl received, present] at moves
      rw [same, if_neg moved, if_neg moved]
      exact ⟨off.symm, answers moves ((congrArg Link.state (Vector.getElem_set_self ..)).trans off.symm) rfl⟩

/-! Ramps (03_gain_ramps_and_mixing.md, R43, R46, R47). -/

section Ramps

variable {r : Crosspoint}

theorem rampStep_resting (ended : r.remaining = 0) : rampStep r = r := if_pos ended

theorem rampStep_stepping (runs : 0 < r.remaining) : rampStep r =
    { r with current := r.current + (effectiveTarget r - r.current).tdiv r.remaining, remaining := r.remaining - 1 } :=
  if_neg runs.ne'

/-- A part of a difference, truncated toward zero, lies between 0 and the difference. -/
theorem tdiv_between (d : Int) (n : Nat) : min 0 d ≤ d.tdiv n ∧ d.tdiv n ≤ max 0 d := by
  have upward {e : Int} (sign : 0 ≤ e) : 0 ≤ e.tdiv n ∧ e.tdiv n ≤ e :=
    ⟨Int.tdiv_nonneg sign (Int.natCast_nonneg n), Int.tdiv_le_self _ sign⟩
  obtain sign | sign := Int.le_total 0 d
  · have := upward sign
    omega
  · have := upward (Int.neg_nonneg.mpr sign)
    rw [Int.neg_tdiv] at this
    omega

theorem rampStep_between (r : Crosspoint) : min r.current (effectiveTarget r) ≤ (rampStep r).current ∧
    (rampStep r).current ≤ max r.current (effectiveTarget r) := by
  obtain ended | runs := r.remaining.eq_zero_or_pos
  · rw [rampStep_resting ended]
    exact ⟨min_le_left .., le_max_left ..⟩
  · have part := tdiv_between (effectiveTarget r - r.current) r.remaining
    rw [rampStep_stepping runs]
    dsimp only
    omega

/-- The last step of a ramp reaches its target (R46). -/
theorem rampStep_last (last : r.remaining = 1) : (rampStep r).current = effectiveTarget r := by
  rw [rampStep_stepping (last ▸ Nat.one_pos), last]
  exact (congrArg (r.current + ·) (Int.tdiv_one _)).trans (add_sub_cancel ..)

theorem ramp_ends : ∀ (n : Nat) (r : Crosspoint), r.remaining = n + 1 →
    (rampStep^[n + 1] r).current = effectiveTarget r ∧ (rampStep^[n + 1] r).remaining = 0
  | 0, r, last => ⟨rampStep_last last, (rampStep_remaining r).trans (congrArg (· - 1) last)⟩
  | n + 1, r, runs => rampStep_effectiveTarget r ▸
    ramp_ends n (rampStep r) ((rampStep_remaining r).trans (congrArg (· - 1) runs))

end Ramps

set_option Elab.async false in
/-- Settles O21: a step by its definition, the end of a ramp by induction on the steps that remain. -/
theorem rampsReachTheirTarget : Obligations.RampsReachTheirTarget :=
  ⟨fun _ => rampStep_stepping, fun _ => rampStep_resting, rampStep_between, fun r runs => by
    obtain ⟨n, more⟩ := Nat.exists_eq_add_one.mpr runs
    exact more ▸ ramp_ends n r more, fun _ w powered settled => ⟨_, samplePeriod_next powered settled, work_table w⟩⟩

/-! What a converter link presents and sends in a sample period (04_converter_links.md, R60, R62, R63, R72, R73, R80). -/

section Inputs

variable (slots : Nat) (rate : Rate) (ys : Nat → Int) (l : Link)

/-- What a link presents is settled before its frame is sent and its window opens. -/
theorem Link.started_inputs :
    let u := ((l.present slots).sendFrame rate ys).openWindow
    u.presented = (l.present slots).presented ∧ u.counters = (l.present slots).counters ∧
      u.frames = (l.present slots).frames ++ if l.state.receives then [⟨0, .unstarted⟩] else [] := by
  dsimp only
  rw [Link.openWindow_eq, Link.sendFrame_eq, Link.present_eq]
  exact ⟨rfl, rfl, rfl⟩

/-- The presentation of the frame period two before the one that starts (R62). -/
def Link.due : Option Presentation :=
  (l.frames.find? fun f => decide (f.age = 1)).bind fun f => match f.status with
    | .judged p => some p
    | _ => none

theorem Link.presentation_grown : ({ l with frames := l.frames.map FramePeriod.grow } : Link).presentation = l.due := by
  have two (f : FramePeriod) : decide (f.grow.age = 2) = decide (f.age = 1) := decide_eq_decide.mpr Nat.succ_inj
  rw [Link.presentation, List.find?_map, Option.bind_map, Link.due]
  refine congr (congrArg Option.bind (congrArg (List.find? · l.frames) (funext two))) (funext fun f => ?_)
  obtain ⟨_, status⟩ := f
  cases status <;> rfl

theorem Link.present_frames :
    (l.present slots).frames = (l.frames.filter fun f => decide (f.age = 0)).map fun f => { f with age := 1 } := by
  have kept : (l.present slots).frames = (l.frames.map FramePeriod.grow).filter fun f => decide (f.age < 2) := by
    rw [Link.present]
    dsimp only
    split <;> rfl
  have new (f : FramePeriod) : decide (f.grow.age < 2) = decide (f.age = 0) :=
    decide_eq_decide.mpr (Nat.succ_lt_succ_iff.trans Nat.lt_one_iff)
  rw [kept, List.filter_map, show ((fun f => decide (f.age < 2)) ∘ FramePeriod.grow) = _ from funext new]
  exact List.map_congr_left fun f mem => congrArg (FramePeriod.mk · f.status)
    (congrArg (· + 1) (of_decide_eq_true (List.mem_filter.mp mem).2))

end Inputs

theorem presentedValues_getElem (slots : Nat) (mask : BitVec 32) (p : Presentation) (k : Nat) (h : k < 32) :
    (presentedValues slots mask p)[k] = if p.active = true ∧ k < slots ∧ mask.getLsbD k = true then p.samples[k] else 0 := by
  rw [presentedValues, tabulate_getElem, Vector.getElem?_eq_getElem h, Option.getD_some]

set_option Elab.async false in
/-- Settles O18: the frame period that falls due is the one of age 2 once each has grown. -/
theorem linksPresentTheirInputs : Obligations.LinksPresentTheirInputs := by
  refine fun s w powered settled => ⟨_, samplePeriod_next powered settled, fun i => ?_⟩
  intro l u due
  have rate : (periodWork (startPeriod w)).gen.rate = w.gen.rate := by rw [work_gen]; rfl
  obtain ⟨presented, counters, frames⟩ : u.presented = _ ∧ u.counters = _ ∧ u.frames = _ := work_link w i ▸ Link.started_inputs ..
  have grown := Link.presentation_grown l.endPeriod
  rw [presented, counters, frames, rate, Link.present_frames]
  refine ⟨fun p isDue => ?_, fun none => ?_,
    congrArg (_ ++ ·) (if_congr (receives_iff _) rfl rfl)⟩
  · obtain ⟨values, counted⟩ := Link.present_of (slotsPerLink w.gen.rate.mult) l.endPeriod p (grown.trans isDue)
    exact ⟨fun k h => by rw [values]; exact presentedValues_getElem .., counted⟩
  · obtain ⟨values, counted⟩ := Link.present_of_none (slotsPerLink w.gen.rate.mult) l.endPeriod (grown.trans none)
    exact ⟨fun k h => by rw [values]; exact Vector.getElem_replicate .., counted⟩

/-! The frame a converter link sends (04_converter_links.md, R60, R63, R73, R80). -/

section Frames

variable (slots : Nat) (rate : Rate) (ys : Nat → Int) (l : Link)

/-- The relay carries a byte of its command in the frame that is sent (R80). -/
def Link.carries : Bool := decide (l.state = .active ∨ l.state = .paused)

theorem Link.carries_off (off : l.state = .off) : l.carries = false :=
  decide_eq_false (off ▸ fun h => h.elim LinkState.noConfusion LinkState.noConfusion)

theorem Link.sendFrame_relay : (l.sendFrame rate ys).relay = match l.relay with
    | .sending tag (b :: rest) => if l.carries then .sending tag rest else .sending tag (b :: rest)
    | .sending tag [] => .sending tag []
    | .awaiting tag count gathered => .awaiting tag count gathered
    | .idle => .idle := by
  by_cases off : l.state = .off
  · rw [Link.sendFrame, if_pos off, l.carries_off off]
    obtain _ | ⟨_, _ | ⟨_, _⟩⟩ | _ := l.relay <;> rfl
  · rw [Link.sendFrame, if_neg off]
    obtain _ | ⟨_, _ | ⟨_, _⟩⟩ | _ := l.relay <;> rfl

/-- The byte that the relay gives the frame (R80). -/
def Link.commandByte : Byte := match l.relay with
  | .sending _ (b :: _) => if l.carries then b else 0#8
  | _ => 0#8

theorem Link.commandByte_zero (h : l.carries = false ∨ ∀ tag b rest, l.relay ≠ .sending tag (b :: rest)) :
    l.commandByte = 0#8 := by
  rw [Link.commandByte]
  split
  · next held => exact h.elim (fun h => if_neg (h ▸ Bool.false_ne_true)) fun h => absurd held (h _ _ _)
  · rfl

theorem Link.sendFrame_sends (on : l.state ≠ .off) : ∃ frame, (l.sendFrame rate ys).txFrame = some frame ∧
    (l.sendFrame rate ys).txSequence = l.txSequence + 1 ∧ frame.sequence = l.txSequence ∧ frame.state = l.state ∧
      frame.rate = rate ∧ frame.command = l.commandByte ∧ frame.slots = (List.range (slotsPerLink rate.mult)).map fun k =>
        if l.state = .active ∧ l.mask.getLsbD k then ys k else 0 := by
  rw [Link.sendFrame, if_neg on]
  refine ⟨_, rfl, rfl, rfl, rfl, rfl, ?_, rfl⟩
  rw [Link.commandByte]
  obtain _ | ⟨_, _ | ⟨_, _⟩⟩ | _ := l.relay <;> rfl

/-- A link at the start of a sample period, but for what it presents and holds to be judged. -/
theorem Link.started_eq : let u := ((l.endPeriod.present slots).sendFrame rate ys).openWindow
    u = { l with
      alignCount := if l.state = .align ∧ l.fresh = false then l.alignCount + 1 else l.alignCount
      holdOff := if l.state = .fault ∧ l.fresh = false then bump 2048 l.holdOff else l.holdOff
      fresh := false, relay := u.relay, txSequence := u.txSequence, txFrame := u.txFrame, frames := u.frames
      presented := u.presented, counters := u.counters } := by
  dsimp only
  rw [Link.openWindow_eq, Link.sendFrame_eq, Link.present_eq]
  rfl

theorem Link.started_sent : let m := l.endPeriod.present slots
    let u := (m.sendFrame rate ys).openWindow
    u.txFrame = (m.sendFrame rate ys).txFrame ∧ u.txSequence = (m.sendFrame rate ys).txSequence ∧
      u.relay = (m.sendFrame rate ys).relay ∧ m.state = l.state ∧ m.relay = l.endPeriod.relay ∧ m.mask = l.mask ∧
      m.txSequence = l.txSequence := by
  dsimp only
  rw [Link.openWindow_eq]
  refine ⟨rfl, rfl, rfl, ?_⟩
  rw [Link.present_eq]
  exact ⟨rfl, rfl, rfl, rfl⟩

theorem Link.sending_of_endPeriod {tag b : Byte} {rest : List Byte} :
    l.endPeriod.relay = .sending tag (b :: rest) → l.relay = .sending tag (b :: rest) := by
  rw [Link.endPeriod]
  obtain _ | ⟨_, _ | ⟨_, _⟩⟩ | _ := l.relay
  exacts [Relay.noConfusion, Relay.noConfusion, id, Relay.noConfusion]

end Frames

set_option Elab.async false in
/-- Settles O19: the frame by the link's state, the relay by what it holds. -/
theorem linksSendTheirFrames : Obligations.LinksSendTheirFrames := by
  refine fun s w powered settled => ⟨_, samplePeriod_next powered settled, fun i => ?_⟩
  intro l u carries
  have rate : (periodWork (startPeriod w)).gen.rate = w.gen.rate := by rw [work_gen]; rfl
  have started := Link.started_eq (slotsPerLink w.gen.rate.mult) w.gen.rate
    (fun k => (w.engine.outputs)[i.val * 32 + k]?.getD 0) l
  obtain ⟨frame, sequence, relay, state, held, mask, before⟩ := Link.started_sent (slotsPerLink w.gen.rate.mult) w.gen.rate
    (fun k => (w.engine.outputs)[i.val * 32 + k]?.getD 0) l
  have link : ((l.endPeriod.present (slotsPerLink w.gen.rate.mult)).sendFrame w.gen.rate
    fun k => (w.engine.outputs)[i.val * 32 + k]?.getD 0).openWindow = u := (work_link w i).symm
  rw [link] at started frame sequence relay
  generalize l.endPeriod.present (slotsPerLink w.gen.rate.mult) = m at frame sequence relay state held mask before
  have carry : m.carries = carries := congrArg (fun x => decide (x = LinkState.active ∨ x = .paused)) state
  refine ⟨fun off => ?off, fun on => ?on, ?relay, started⟩
  case off =>
    rw [frame, sequence, Link.sendFrame, if_pos (state.trans off)]
    exact ⟨rfl, before⟩
  case on =>
    obtain ⟨sent, isSent, advanced, numbered, told, rated, byte, values⟩ :=
      m.sendFrame_sends w.gen.rate (fun k => (w.engine.outputs)[i.val * 32 + k]?.getD 0) (state ▸ on)
    refine ⟨sent, frame.trans isSent, before ▸ sequence.trans advanced, before ▸ numbered, state ▸ told, rate ▸ rated, ?_,
      fun k x at_k => ?_, fun tag b rest carried sending => ?_, fun idle => ?_⟩
    · rw [values, List.length_map, List.length_range, rate]
    · rw [values, List.getElem?_map] at at_k
      obtain ⟨_, isK, rfl⟩ := Option.map_eq_some_iff.mp at_k
      obtain ⟨_, rfl⟩ := List.getElem?_eq_some_iff.mp isK
      rw [List.getElem_range, state, mask, Nat.mul_comm]
    · rw [byte, Link.commandByte, held, Link.endPeriod, sending, carry, carried]
      rfl
    · rw [byte]
      exact m.commandByte_zero (carry ▸ idle.imp_right fun never tag b rest sending =>
        never tag b rest (l.sending_of_endPeriod (held.symm.trans sending)))
  case relay =>
    rw [relay, Link.sendFrame_relay, held, carry, Link.endPeriod]
    obtain _ | ⟨_, _ | ⟨_, _⟩⟩ | _ := l.relay <;> rfl

/-! The meter unit's part of a sample period and the row of the UP block (09_metering.md, R162; R57, R108). -/

section Meter

variable {before after : State}

theorem meterPeriod_operate (operate : before.gen.periodMode = .operate) : meterPeriod before after =
    after.onMeter fun m => { m with points := mapEntries (meterPoint before after) m.points } := if_pos operate

theorem meterPeriod_setup (setup : before.gen.periodMode = .setup) : meterPeriod before after =
    after.onMeter fun m => { m with setupSeen := true } := if_neg (setup ▸ Mode.noConfusion)

theorem meterPoint_eq (p : MeterPoint) : meterPoint before after p = if p.active then
      { p with
        peak := max p.peak (tapValue before after p).natAbs
        clipSeen := p.clipSeen || decide (p.tap = .destination ∧ p.slot ∈ after.engine.clipFlags) }
    else p := by
  rw [meterPoint, Bool.decide_and, List.contains_eq_mem]

end Meter

set_option Elab.async false in
/-- Settles O22: the points by the mode of the period, the row by what the record channels took. -/
theorem peaksAndRowsOfAPeriod : Obligations.PeaksAndRowsOfAPeriod := by
  refine fun s w powered settled => ⟨_, samplePeriod_next powered settled, ?_⟩
  have parts := work_parts w
  have before := premix_parts w
  generalize periodWork (startPeriod w) = t at parts
  generalize premix w = b at parts before
  obtain ⟨gen, links, uplink, engine, meter, mgmt⟩ := parts
  obtain ⟨held, points, gathered⟩ := before
  have outputs : b.engine.outputs = w.engine.outputs := by rw [held]
  rw [gen, links, uplink, engine, meter, mgmt, ← points, ← gathered, ← outputs]
  intro m x seen
  have sees (q : MeterPoint) : tapValue b (mixPeriod b) q = seen q := rfl
  refine ⟨?kept, fun operate => ?operate, fun setup => ?setup, ?row⟩
  case kept =>
    rw [meterPeriod]
    split_ifs <;> rfl
  case operate =>
    rw [meterPeriod_operate operate]
    exact ⟨rfl, fun n => by rw [← sees, ← meterPoint_eq]; exact mapEntries_getElem ..⟩
  case setup => rw [meterPeriod_setup setup]; exact ⟨rfl, rfl⟩
  case row =>
    refine ⟨_, rfl, by rw [List.length_map, List.length_range]; rfl, fun c few => ?_⟩
    rw [List.getElem?_map]
    exact congrArg (Option.map _) (List.getElem?_range few)

/-! BLOCK_BOUNDARY and play time (R8, R101, R109, R113, R115 to R117, R163, R176). -/

theorem blockBoundary_next {s w : State} (within : InPeriod s) (last : s.gen.position + 1 = s.gen.blockSize)
    (ends : endPeriod s = w) : exec .blockBoundary s = .next (openBlock w) :=
  run_eq within.1 ((if_pos (decide_eq_true ⟨within.2, last.ge⟩)).trans (congrArg openBlock ends))

section Due

variable {s : State}

theorem filter_ne {α : Type} [DecidableEq α] (o : Option α) (x : α) :
    (o.filter fun y => decide (y ≠ x)) = if o = some x then none else o := by
  cases o with
  | none => rfl
  | some y =>
    by_cases same : y = x
    · rw [if_pos (congrArg some same), Option.filter_some, decide_eq_false (not_not.mpr same)]; rfl
    · rw [if_neg fun h => same (Option.some_inj.mp h), Option.filter_some, decide_eq_true same]; rfl

theorem filter_ne_isSome {α : Type} [DecidableEq α] (o : Option α) (x : α) :
    (o.filter fun y => decide (y ≠ x)).isSome = true ↔ ∃ y, o = some y ∧ y ≠ x := by
  rw [Option.isSome_filter, Option.any_eq_true]
  exact exists_congr fun y => and_congr_right' decide_eq_true_iff

/-- The boundary empties the playback ring (R116). -/
theorem flushes_iff (s : State) : (openBoundary s).flushes = true ↔
    s.device.resetState = .ready ∨ (∃ r, s.clock.pendingRate = some r ∧ r ≠ s.gen.rate) ∨
      ∃ c, s.uplink.pendingConfig = some c ∧ c ≠ ⟨s.gen.blockSize, s.gen.records, s.gen.playback⟩ := by
  by_cases ready : s.device.resetState = .ready
  · rw [Boundary.flushes, openBoundary, decide_eq_true ready, Bool.or_true]
    exact iff_of_true rfl (.inl ready)
  · rw [Boundary.flushes, openBoundary, decide_eq_false ready, Bool.or_false, Bool.or_eq_true]
    exact (or_congr (filter_ne_isSome ..) (filter_ne_isSome ..)).trans (or_iff_right ready).symm

end Due

section Opened

variable {m : Management} {b : UpBlock}

theorem blockDue_eq (b : UpBlock) (m : Management) : m.blockDue b = { m with
    lane := (m.blockDue b).lane, blocksDue := (m.blockDue b).blocksDue, gathered := []
    meterSlot := m.meterSlot.map fun r => { r with age := bump 255 r.age } } := by
  rw [Management.blockDue, Management.startDue]
  split <;> rfl

/-- The next block period before its play time. -/
def opened (s : State) : State :=
  { s with
    gen := { s.gen with
      blockNumber := wrapSucc 65536 s.gen.blockNumber, blockStamp := wrapSucc 4294967296 s.gen.sampleCounter }
    boundary := openBoundary s
    clock := { s.clock with pendingRate := none }
    uplink := { s.uplink with pendingConfig := none, fallbackArmed := false }
    meter := { s.meter with count := bump 255 s.meter.count }
    mgmt := s.mgmt.blockDue (formUpBlock s) }

theorem openBlock_opened (s : State) : openBlock s = countLoss (playTime (openBoundary s).flushes (opened s)) := rfl

theorem opened_queue (s : State) : (opened s).mgmt.alarms = s.mgmt.alarms ∧ (opened s).mgmt.counters = s.mgmt.counters := by
  rw [opened, blockDue_eq]
  exact ⟨rfl, rfl⟩

end Opened

theorem postAlarm_queue {s t : State} (x : Alarm) (alarms : s.mgmt.alarms = t.mgmt.alarms)
    (counters : s.mgmt.counters = t.mgmt.counters) : (postAlarm x s).mgmt.alarms = (postAlarm x t).mgmt.alarms ∧
      (postAlarm x s).mgmt.counters = (postAlarm x t).mgmt.counters := by
  rw [postAlarm, postAlarm, State.onMgmt, State.onMgmt, alarms, counters]
  exact ⟨rfl, rfl⟩

section PlayTime

variable {s : State}

theorem playTime_plays {b : RingBlock} (held : s.uplink.ring.find? (fun r => decide (r.number = s.uplink.nextPlay)) = some b) :
    playTime false s = s.onUplink fun u => { u with
      ring := u.ring.filter fun r => decide (r.number ≠ s.uplink.nextPlay)
      nextPlay := wrapSucc 65536 u.nextPlay, playing := some b.samples, playedFlag := true
      counters := { u.counters with played := bump32 u.counters.played } } := by
  have due : b.number = s.uplink.nextPlay :=
    of_decide_eq_true (List.find?_some (p := fun r : RingBlock => decide (r.number = s.uplink.nextPlay)) held)
  exact (if_neg Bool.false_ne_true).trans (by rw [held, ← due]; rfl)

theorem playTime_underruns (absent : ∀ b ∈ s.uplink.ring, b.number ≠ s.uplink.nextPlay) : playTime false s =
    if s.uplink.playedFlag then postUplinkAlarm .underrun none (s.onUplink UplinkRx.underrun)
    else s.onUplink UplinkRx.underrun := by
  have none : s.uplink.ring.find? (fun r => decide (r.number = s.uplink.nextPlay)) = none :=
    List.find?_eq_none.mpr fun b mem => decide_eq_true_iff.not.mpr (absent b mem)
  exact (if_neg Bool.false_ne_true).trans (by rw [none])

end PlayTime

set_option Elab.async false in
/-- Settles O24: the ring is emptied, or the due block is played, or the block period is an underrun. -/
theorem playTimeTakesTheDueBlock : Obligations.PlayTimeTakesTheDueBlock := by
  intro s w within last ends empties quiet posted next
  have goesOn (full : ¬ empties) : openBlock w = countLoss (playTime false (opened w)) :=
    (openBlock_opened w).trans (by rw [eq_false_of_ne_true (mt (flushes_iff w).mp full)])
  refine ⟨_, blockBoundary_next within last ends, fun empty => ?flush, fun b full held => ?play, fun full absent => ?under⟩
  case flush =>
    rw [openBlock_opened, (flushes_iff w).mpr empty]
    exact ⟨opened_queue w, rfl⟩
  case play =>
    rw [goesOn full, playTime_plays (s := opened w) held]
    exact ⟨opened_queue w, rfl⟩
  case under =>
    rw [goesOn full, playTime_underruns (s := opened w) absent]
    refine ⟨?_, fun silent => ?_, fun played => ?_⟩
    · split_ifs <;> rfl
    · rw [if_neg (show ¬ (opened w).uplink.playedFlag = true from silent ▸ Bool.false_ne_true)]
      exact opened_queue w
    · rw [if_pos (show (opened w).uplink.playedFlag = true from played)]
      exact postAlarm_queue _ (opened_queue w).1 (opened_queue w).2

/-! The upstream lane and the alarm queue (10_management_messages.md, R109, R172, R174 to R178, R190). -/

section Frames

variable {s : State} {m : Management}

/-- What takes a lane that comes free (R109). -/
def nextLane (due : List UpBlock) : Lane := match due with
  | [] => .free
  | b :: _ => .block b

theorem nextLane_holds (due : List UpBlock) : (nextLane due).holdsPlace = false := by cases due <;> rfl

theorem startDue_free (m : Management) : Management.startDue { m with lane := .free } =
    { m with lane := nextLane m.blocksDue, blocksDue := m.blocksDue.tail } := by
  obtain ⟨_, _, _, _, _, _, _, _, due, _, _⟩ := m
  cases due <;> rfl

theorem endBlock_sent {b : UpBlock} (sent : s.mgmt.lane = .block b) : endBlock s = { s with
    mgmt := { s.mgmt with
      lane := nextLane s.mgmt.blocksDue, blocksDue := s.mgmt.blocksDue.tail, frameCount := 0 } } := by
  rw [endBlock, sent]
  exact congrArg (fun g => { s with mgmt := g }) (startDue_free { s.mgmt with frameCount := 0 })

theorem endBlock_idle (idle : ∀ b, s.mgmt.lane ≠ .block b) : endBlock s = s := by
  rw [endBlock]
  split
  · next sent => exact absurd sent (idle _)
  all_goals rfl

/-- Only the OK of a DEVICE_RESET lets the reset act (R190). -/
theorem resetAfter_eq (x : Message) (r : ResetState) : resetAfter x r = match x with
    | .reply p => if p.kind = 0x72#8 ∧ p.answer.status = .ok ∧ r = .replying then .ready else r
    | _ => r := by
  cases x with
  | reply p => exact if_congr ((and_congr_left' decide_eq_true_iff).trans and_assoc) rfl rfl
  | alarm | event | meter => exact if_neg fun h => Bool.false_ne_true h.1

theorem endMessage_sent {x : Message} (sent : s.mgmt.lane = .message x) : endMessage s = { s with
    mgmt := { s.mgmt with lane := nextLane s.mgmt.blocksDue, blocksDue := s.mgmt.blocksDue.tail }
    device := { s.device with resetState := resetAfter x s.device.resetState } } := by
  rw [endMessage, sent]
  exact congrArg (fun g => { s with
    mgmt := g, device := { s.device with resetState := resetAfter x s.device.resetState } }) (startDue_free s.mgmt)

theorem endMessage_idle (idle : ∀ x, s.mgmt.lane ≠ .message x) : endMessage s = s := by
  rw [endMessage]
  split
  · next sent => exact absurd sent (idle _)
  all_goals rfl

end Frames

section Queue

theorem queueAlarm_new {a : Alarm} {q : List AlarmEntry} (new : ∀ e ∈ q, e.alarm.key ≠ a.key) :
    (q.any fun e => decide (e.alarm.key = a.key)) = false :=
  List.any_eq_false.mpr fun e mem => decide_eq_true_iff.not.mpr (new e mem)

theorem queueAlarm_replaces {a : Alarm} {before after : List AlarmEntry} {e : AlarmEntry} (held : e.alarm.key = a.key)
    (others : ∀ x ∈ before ++ after, x.alarm.key ≠ a.key) :
    ((before ++ e :: after).any fun x => decide (x.alarm.key = a.key)) = true ∧
      queueAlarm a (before ++ e :: after) = before ++ ⟨a, bump 255 e.superseded⟩ :: after := by
  have any : ((before ++ e :: after).any fun x => decide (x.alarm.key = a.key)) = true :=
    List.any_eq_true.mpr ⟨e, List.mem_append_right _ (List.mem_cons_self ..), decide_eq_true held⟩
  have kept {l : List AlarmEntry} (sub : l ⊆ before ++ after) :
      (l.map fun x => if x.alarm.key = a.key then ⟨a, bump 255 x.superseded⟩ else x) = l :=
    (List.map_congr_left (g := id) fun x mem => if_neg (others x (sub mem))).trans (List.map_id l)
  refine ⟨any, (if_pos any).trans ?_⟩
  rw [List.map_append, List.map_cons, if_pos held, kept (List.subset_append_left ..), kept (List.subset_append_right ..)]

theorem postAlarm_queued {a : Alarm} {s : State} {replaces : Bool} {q : List AlarmEntry}
    (any : (s.mgmt.alarms.any fun x => decide (x.alarm.key = a.key)) = replaces) (queue : queueAlarm a s.mgmt.alarms = q) :
    postAlarm a s = { s with mgmt := { s.mgmt with
      alarms := q
      counters := { s.mgmt.counters with
        superseded := if replaces then bump32 s.mgmt.counters.superseded else s.mgmt.counters.superseded } } } := by
  rw [postAlarm_spec, ← queue, ← any]
  rfl

end Queue

section Choice

variable {m : Management} {lost : Bool}

theorem chooseMessage_alarm {e : AlarmEntry} {rest : List AlarmEntry} (first : m.alarms = e :: rest) :
    chooseMessage lost m = m.beginAlarm e rest := by rw [chooseMessage, first]

variable (quiet : m.alarms = [])
include quiet

theorem chooseMessage_reply {r : Reply} {rest : List Reply} (oldest : m.replies = r :: rest) :
    chooseMessage false m = m.beginReply r rest := by
  rw [chooseMessage, quiet, oldest]
  exact if_neg Bool.false_ne_true

variable (noReply : m.replies = [] ∨ lost = true)
include noReply

theorem chooseMessage_below : chooseMessage lost m = chooseBelowReplies m := by
  rw [chooseMessage, quiet]
  obtain none | rfl := noReply
  · rw [none]
  · cases m.replies <;> rfl

theorem chooseMessage_report {r : SlotReport} (held : m.meterSlot = some r) (first : r.isPromoted = true ∨ m.events = []) :
    chooseMessage lost m = m.beginReport r := by
  rw [chooseMessage_below quiet noReply, chooseBelowReplies, promotedSlot, held, Option.filter_some]
  by_cases promoted : r.isPromoted = true
  · rw [if_pos promoted]
  · rw [if_neg promoted, first.resolve_left promoted]

theorem chooseMessage_event {e : SurfaceEvent} {rest : List SurfaceEvent}
    (none : ∀ r, m.meterSlot = some r → ¬ r.isPromoted = true) (oldest : m.events = e :: rest) :
    chooseMessage lost m = m.beginEvent e rest := by
  rw [chooseMessage_below quiet noReply, chooseBelowReplies, promotedSlot, oldest,
    Option.filter_eq_none_iff.mpr none]

theorem chooseMessage_none (empty : m.meterSlot = none) (none : m.events = []) : chooseMessage lost m = m := by
  rw [chooseMessage_below quiet noReply, chooseBelowReplies, promotedSlot, empty, none]
  rfl

end Choice

set_option Elab.async false in
/-- Settles O48: the ends of frames by what the lane holds, the alarm queue by its keys, the choice class by class. -/
theorem theLaneKeepsItsOrder : Obligations.TheLaneKeepsItsOrder := by
  refine ⟨fun s within => ?ends, fun a s => ?posts, fun s within => ?choice⟩
  case ends =>
    refine ⟨fun b sent => act_eq within (endBlock_sent sent), fun idle => act_eq within (endBlock_idle idle),
      fun x sent => ⟨_, act_eq within (endMessage_sent sent), ?_⟩, fun idle => act_eq within (endMessage_idle idle)⟩
    have places {n : Nat} (holds : (Lane.message x).holdsPlace.toNat = n) (t : State) (inFlight : Nat)
        (after : placesInUse t = inFlight + (nextLane s.mgmt.blocksDue).holdsPlace.toNat)
        (before : placesInUse s = inFlight + s.mgmt.lane.holdsPlace.toNat) : placesInUse t + n = placesInUse s := by
      rw [after, before, nextLane_holds, sent, holds]
      rfl
    refine ⟨rfl, fun r isReply => places (isReply ▸ rfl) _ _ rfl rfl, fun other => places (n := 0) ?_ _ _ rfl rfl, ?_⟩
    · cases x with
      | reply r => exact absurd rfl (other r)
      | alarm | event | meter => rfl
    · exact resetAfter_eq x s.device.resetState
  case posts =>
    intro key posted
    refine ⟨fun new => ?_, fun before e after split held others => ?_⟩
    · have none := queueAlarm_new (a := a) new
      have queue : queueAlarm a s.mgmt.alarms = _ := if_neg (none ▸ Bool.false_ne_true)
      exact ⟨queue, postAlarm_queued none queue⟩
    · have replaced := queueAlarm_replaces (a := a) held others
      rw [← split] at replaced
      exact ⟨replaced.2, postAlarm_queued replaced.1 replaced.2⟩
  case choice =>
    intro m promoted sends noReply
    have isPromoted (r : SlotReport) : r.isPromoted = true ↔ promoted r :=
      (Bool.or_eq_true ..).to_iff.trans (or_congr_right decide_eq_true_iff)
    have passed : noReply → m.replies = [] ∨ decide (s.uplink.state = .lost) = true := Or.imp_right decide_eq_true
    refine ⟨fun free due few => ?_, fun busy => act_eq within (if_neg fun may => ?_)⟩
    · have chooses {m' : Management} (h : chooseMessage (decide (s.uplink.state = .lost)) m = m') :
          exec .arbiterChoice s = .next { s with mgmt := m' } :=
        act_eq within ((if_pos (decide_eq_true ⟨free, due, few⟩)).trans (congrArg (fun g => { s with mgmt := g }) h))
      refine ⟨fun e rest first => chooses (chooseMessage_alarm first), fun r rest quiet up oldest => chooses ?_,
        fun r quiet none held first => chooses (chooseMessage_report quiet (passed none) held (first.imp_left (isPromoted r).mpr)),
        fun e rest quiet none unpromoted oldest => chooses (chooseMessage_event quiet (passed none)
          (fun r held => mt (isPromoted r).mp (unpromoted r held)) oldest),
        fun quiet none empty noEvents => chooses (chooseMessage_none quiet (passed none) empty noEvents)⟩
      rw [decide_eq_false (up ▸ UplinkState.noConfusion)]
      exact chooseMessage_reply quiet oldest
    · obtain ⟨free, due, few⟩ := of_decide_eq_true may
      exact busy.elim (fun h => h free) fun h => h.elim (fun h => h due) (not_le.mpr few)

end Sys2Proof.Machine

/-! What a step can do to the patch (R15 to R47, R139 to R169, R186 to R190): its events, from which the laws of the table,
the change list, the holds, the gains and the store follow. -/

namespace Sys2Proof.Machine

open Sys2Proof.Safety

set_option genSizeOf false in
set_option genInjectivity false in
/-- What the laws of the patch speak of. -/
structure Patch where
  table : List Crosspoint
  edits : List Edit
  commit : Option Byte
  store : Store
  law : Vector Int 129
  mode : Mode
  online : Fin 4 → Prop

def State.patch (s : State) : Patch :=
  ⟨s.engine.table, s.engine.edits, s.engine.commit, s.device.store, s.rules.law, s.device.mode,
    fun i => (s.surfaces.get i).state = .online⟩

/-- What a request, an action of a rule or a sample period can make of a record (R19 to R22, R26, R45, R145 to R152). -/
inductive RecordWrite (p : Patch) (r : Crosspoint) : Crosspoint → Prop
  | kept : RecordWrite p r r
  | gain {gain : Int} (code : RampCode) (range : InRange gain) : RecordWrite p r (writeGain gain code r)
  | mute (on : Bool) : RecordWrite p r (writeMute on r)
  | ramp (code : RampCode) : RecordWrite p r (writeRamp code r)
  | revive {x : PatchEntry} (range : InRange x.setGain) : RecordWrite p r (reviveRecord x r)
  | drive (value : Nat) (code : RampCode) : RecordWrite p r (driveRecord (lawCoefficient p.law value) code r)
  | nudge (turn : Int) (step : Nat) : RecordWrite p r (nudgeRecord turn step r)
  | toggle : RecordWrite p r (toggleRecord r)
  | hold {link : Fin 4} (online : p.online link) (operate : p.mode = .operate) : RecordWrite p r (holdRecord link r)
  | release : RecordWrite p r (releaseHold r)
  | step : RecordWrite p r (rampStep r)

/-- The gain of a pending ADD is in range. -/
def EditInRange (d : Edit) : Prop := ∀ x, d = .add x → InRange x.setGain

/-- What a request can make of the change list (R18 to R22, R29). -/
inductive ListWrite (p : Patch) : List Edit → Prop
  | dropped (q : Edit → Bool) : ListWrite p (p.edits.filter q)
  | discarded : ListWrite p []
  | appended {d : Edit} (room : p.edits.length < 64) (range : EditInRange d) (fits : EditFits p.table d)
      (new : (∀ e ∈ p.edits, EditFits p.table e) → findEdit p.edits d.source d.destination = none) :
      ListWrite p (p.edits ++ [d])
  | rewrote {f : Edit → Edit} (pair : ∀ d, (f d).source = d.source ∧ (f d).destination = d.destination)
      (range : ∀ d, EditInRange d → EditInRange (f d)) (fits : ∀ d, EditFits p.table d → EditFits p.table (f d)) :
      ListWrite p (p.edits.map f)

/-- The patch with more links ONLINE. -/
def Joins (p q : Patch) : Prop := ∃ online, q = { p with online := online } ∧ ∀ i, p.online i → online i

/-- What can happen to the patch. -/
inductive PatchEvent (p : Patch) : Patch → Prop
  | wrote {f : Crosspoint → Crosspoint} (each : ∀ r, RecordWrite p r (f r)) :
      PatchEvent p { p with table := p.table.map f }
  | edited {edits : List Edit} (unsealed : p.commit = none) (write : ListWrite p edits) :
      PatchEvent p { p with edits := edits }
  | accepted (tag : Byte) (accepted : validateEdits 0 (p.table.map (·.destination)) p.edits = none) :
      PatchEvent p { p with commit := some tag }
  | lawWritten (start : Nat) {entries : List Int} (range : entries.all coeffInRange = true) :
      PatchEvent p { p with law := writeLaw start entries p.law }
  | setup : PatchEvent p { p with table := releaseAll p.table, mode := .setup }
  | operate (setup : p.mode ≠ .operate) : PatchEvent p { p with mode := .operate }
  | storing (few : ¬ 256 < p.table.length) (rate : Rate) (autostart fallback : Bool) (tag : Byte) (since : Nat) :
      PatchEvent p { p with store := .writing ⟨p.table.map storeRecord, rate, autostart, fallback⟩ tag since }
  | stored {patch : StoredPatch} {tag : Byte} {since : Nat} (writing : p.store = .writing patch tag since) :
      PatchEvent p { p with store := .valid patch }
  | joined {q : Patch} (joins : Joins p q) : PatchEvent p q
  | lost (i : Fin 4) {online : Fin 4 → Prop} (others : ∀ j, i ≠ j → p.online j → online j) :
      PatchEvent p { p with table := releaseOwner i p.table, online := online }
  | committed {tag : Byte} (listSealed : p.commit = some tag) :
      PatchEvent p { p with table := p.edits.foldl applyEdit p.table, edits := [], commit := none }
  | installed {patch : StoredPatch} (stored : p.store = .valid patch) :
      PatchEvent p { p with table := patch.records.map joinRecord, edits := [], commit := none }
  | restarted {table : List Crosspoint} (starts : table = startTable p.store.cut.autostart ∨ table = []) (mode : Mode)
      (online : Fin 4 → Prop) : PatchEvent p ⟨table, [], none, p.store.cut, RuleUnit.reset.law, mode, online⟩

/-- What a run of operations can do to the patch. -/
abbrev Moves : Patch → Patch → Prop := Relation.ReflTransGen PatchEvent

theorem Agree.patch {s t : State} (agree : Agree [.engine, .surfaces, .rules, .device] s t) : t.patch = s.patch := by
  unfold State.patch
  rw [agree.engine (by decide), agree.surfaces (by decide), agree.rules (by decide), agree.device (by decide)]

theorem unsealed_of_not {e : Engine} (h : ¬ e.listSealed = true) : e.commit = none :=
  Option.not_isSome_iff_eq_none.mp h

theorem inRange_of_coeffOf {x y : Int} (h : coeffOf x = some y) : InRange y := by
  obtain ⟨range, same⟩ := Option.ite_none_right_eq_some.mp h
  have bounds : -8388608 ≤ x ∧ x ≤ 8388607 := of_decide_eq_true range
  exact Option.some.inj same ▸ bounds

section Moves

variable {p₀ : Patch} {s : State}

theorem Moves.same {t : State} (h : Moves p₀ s.patch) (agree : Agree [.engine, .surfaces, .rules, .device] s t) :
    Moves p₀ t.patch := agree.patch ▸ h

/-- A write on the records of one kind. -/
theorem Moves.wrote {p : Patch} (h : Moves p₀ p) {f : Crosspoint → Crosspoint} (each : ∀ r, RecordWrite p r (f r))
    (q : Crosspoint → Prop) [DecidablePred q] :
    Moves p₀ { p with table := p.table.map fun r => if q r then f r else r } :=
  h.tail (.wrote fun r => by split; exacts [each r, .kept])

/-- A choice between two answers. -/
theorem Moves.ite {α : Type} {c : Prop} [Decidable c] {a b : State × α} (yes : c → Moves p₀ a.1.patch)
    (no : ¬ c → Moves p₀ b.1.patch) : Moves p₀ (if c then a else b).1.patch :=
  iteInduction (motive := fun x : State × α => Moves p₀ x.1.patch) yes no

/-- An event where it is due. -/
theorem Moves.due {c : Prop} [Decidable c] {a b : State} (yes : c → Moves p₀ a.patch) (no : ¬ c → Moves p₀ b.patch) :
    Moves p₀ (if c then a else b).patch :=
  iteInduction (motive := fun x : State => Moves p₀ x.patch) yes no

/-- An update of a surface link that leaves it ONLINE where it was. -/
theorem joins_onSurface (i : Fin 4) (f : Surface → Surface) (same : ∀ x, x.state = .online → (f x).state = .online) :
    Joins s.patch (s.onSurface i f).patch :=
  ⟨_, rfl, fun j online => by
    by_cases here : i = j
    · subst here
      exact (congrArg Surface.state (modifyEntry_same ..)).trans (same _ online)
    · exact (congrArg Surface.state (modifyEntry_other _ _ _ _ here)).trans online⟩

theorem joins_offerUpdate (i : Fin 4) (kind : UpdateKind) (address value : Nat) :
    Joins s.patch (offerUpdate i kind address value s).patch := by
  refine iteInduction (motive := fun t : State => Joins s.patch t.patch) (fun _ => joins_onSurface i _ fun x online => ?_)
    fun _ => ⟨_, rfl, fun _ => id⟩
  unfold Surface.offered
  obtain ⟨set, outcome⟩ := placeUpdate kind address value x.updates
  obtain _ | _ | _ := outcome <;> exact online

theorem Moves.surface (h : Moves p₀ s.patch) (i : Fin 4) (f : Surface → Surface)
    (same : ∀ x, x.state = .online → (f x).state = .online) : Moves p₀ (s.onSurface i f).patch :=
  h.tail (.joined (joins_onSurface i f same))

/-! ### The requests -/

theorem moves_appendEdit (h : Moves p₀ s.patch) {d : Edit} (unsealed : s.engine.commit = none) (range : EditInRange d)
    (fits : EditFits s.engine.table d)
    (new : (∀ e ∈ s.engine.edits, EditFits s.engine.table e) → findEdit s.engine.edits d.source d.destination = none) :
    Moves p₀ (appendEdit d s).1.patch :=
  .ite (fun room => h.tail (.edited unsealed (.appended room range fits new))) fun _ => h

/-- What is asked of the fields that are read holds of those that the rest of the reading gives. -/
theorem bind_reads {α β : Type} {P : β → Prop} {field : Option α} {next : α → Option β}
    (rest : ∀ x, field = some x → ∀ y, next x = some y → P y) (y : β) (read : field.bind next = some y) : P y := by
  obtain ⟨x, first, read⟩ := Option.bind_eq_some_iff.mp read
  exact rest x first y read

theorem readEntry_inRange {body : Option XpAddBody} {x : PatchEntry} (read : body.bind readEntry = some x) :
    InRange x.setGain := by
  refine bind_reads (P := fun x : PatchEntry => InRange x.setGain) (fun b _ => ?_) x read
  refine bind_reads fun _ _ => bind_reads fun _ _ => bind_reads fun gain field => bind_reads fun _ _ => bind_reads fun _ _ y same => ?_
  exact Option.some.inj same ▸ inRange_of_coeffOf field

/-- A pair that no record and no pending ADD has. -/
theorem route_unused {e : Engine} {src dst : Slot} (new : route e src dst = .nothing) :
    findRecord e.table src dst = none ∧ ((∀ d ∈ e.edits, EditFits e.table d) → findEdit e.edits src dst = none) := by
  have free : findRecord e.table src dst = none := by
    rcases found : findRecord e.table src dst with _ | r
    · rfl
    · exact Route.noConfusion (new.symm.trans (route_record found))
  refine ⟨free, fun fits => ?_⟩
  rcases pending : findEdit e.edits src dst with _ | a | ⟨a, b⟩
  · rfl
  · exact Route.noConfusion (new.symm.trans (route_pendingAdd free pending))
  · obtain ⟨m, rfl, rfl⟩ := findEdit_some pending
    have held : (findRecord e.table a b).isSome = true := fits _ m
    exact absurd (congrArg Option.isSome free) (ne_of_eq_of_ne held Bool.noConfusion)

/-- A pair whose record is to stay. -/
theorem route_kept {e : Engine} {src dst : Slot} {r : Crosspoint} (kept : route e src dst = .record r false) :
    (findRecord e.table src dst).isSome = true ∧ findEdit e.edits src dst = none := by
  rcases found : findRecord e.table src dst with _ | q
  · rcases pending : findEdit e.edits src dst with _ | a | _
    · exact Route.noConfusion (kept.symm.trans (route_nothing found pending))
    · exact Route.noConfusion (kept.symm.trans (route_pendingAdd found pending))
    · unfold route at kept
      rw [found, pending] at kept
      exact Route.noConfusion kept
  · exact ⟨rfl, Option.not_isSome_iff_eq_none.mp
      (ne_true_of_eq_false (Route.record.inj ((route_record found).symm.trans kept)).2)⟩

theorem moves_ownXpAdd (body : Option XpAddBody) (h : Moves p₀ s.patch) : Moves p₀ (ownXpAdd body s).1.patch := by
  unfold ownXpAdd
  rcases read : body.bind readEntry with _ | x
  · exact h
  · have range := readEntry_inRange read
    refine .ite (fun _ => h) fun opened => ?_
    have unsealed := unsealed_of_not opened
    rcases routed : route s.engine x.source x.destination with ⟨r, _ | _⟩ | _ | _
    · exact h
    · exact Moves.wrote (h.tail (.edited unsealed (.dropped _))) (fun r => .revive range) _
    · exact h
    · exact moves_appendEdit h unsealed (fun y same => Edit.add.inj same ▸ range) (route_unused routed).1 (route_unused routed).2

theorem moves_ownXpRemove (body : Option PairBody) (h : Moves p₀ s.patch) : Moves p₀ (ownXpRemove body s).1.patch := by
  unfold ownXpRemove
  obtain _ | ⟨src, dst⟩ := body.bind readPairBody
  · exact h
  · refine .ite (fun _ => h) fun opened => ?_
    have unsealed := unsealed_of_not opened
    rcases routed : route s.engine src dst with ⟨r, _ | _⟩ | _ | _
    case pendingAdd => exact h.tail (.edited unsealed (.dropped _))
    case nothing => exact h
    case record.true => exact h
    case record.false =>
        obtain ⟨held, unedited⟩ := route_kept routed
        exact moves_appendEdit h unsealed (fun _ => Edit.noConfusion) held fun _ => unedited

/-- A write on a pair: on its record, or on its pending ADD, which keeps its pair, and its gain in range (R20). -/
theorem moves_writePair (h : Moves p₀ s.patch) (src dst : Slot) {f : Crosspoint → Crosspoint} {g : PatchEntry → PatchEntry}
    (held : Bool) (writes : ∀ r, RecordWrite s.patch r (f r))
    (pair : ∀ a, (g a).source = a.source ∧ (g a).destination = a.destination)
    (range : ∀ a, InRange a.setGain → InRange (g a).setGain) : Moves p₀ (writePair src dst f g held s).1.patch := by
  unfold writePair
  obtain _ | _ | _ := route s.engine src dst
  case record => exact h.wrote writes _
  case nothing => exact h
  case pendingAdd =>
    refine .ite (fun _ => h) fun opened =>
      h.tail (.edited (unsealed_of_not opened) (.rewrote (fun d => ?_) (fun d k => ?_) fun d k => ?_))
    all_goals
      obtain a | _ := d
      case remove => first | exact k | exact ⟨rfl, rfl⟩
    · exact iteInduction (motive := fun d : Edit => d.source = a.source ∧ d.destination = a.destination)
        (fun _ => pair a) fun _ => ⟨rfl, rfl⟩
    · exact iteInduction (motive := EditInRange) (fun _ y same => Edit.add.inj same ▸ range a (k a rfl)) fun _ => k
    · refine iteInduction (motive := EditFits s.engine.table) (fun _ => ?_) fun _ => k
      show findRecord s.engine.table (g a).source (g a).destination = none
      rw [(pair a).1, (pair a).2]
      exact k

theorem moves_ownXpGain (body : Option XpGainBody) (h : Moves p₀ s.patch) : Moves p₀ (ownXpGain body s).1.patch := by
  unfold ownXpGain
  rcases read : body.bind readXpGainFields with _ | ⟨src, dst, gain, code⟩
  · exact h
  · have range : InRange gain := by
      refine bind_reads (P := fun x : Slot × Slot × Int × RampCode => InRange x.2.2.1) (fun b _ => ?_) _ read
      refine bind_reads fun _ _ => bind_reads fun _ _ => bind_reads fun gain field => bind_reads fun _ _ y same => ?_
      exact Option.some.inj same ▸ inRange_of_coeffOf field
    exact moves_writePair h _ _ _ (fun r => .gain _ range) (fun _ => ⟨rfl, rfl⟩) fun _ _ => range

theorem moves_ownXpMute (body : Option XpMuteBody) (h : Moves p₀ s.patch) : Moves p₀ (ownXpMute body s).1.patch := by
  unfold ownXpMute
  obtain _ | _ := body.bind readXpMuteFields
  · exact h
  · exact moves_writePair h _ _ _ (fun r => .mute _) (fun _ => ⟨rfl, rfl⟩) fun _ => id

theorem moves_ownXpRamp (body : Option XpRampBody) (h : Moves p₀ s.patch) : Moves p₀ (ownXpRamp body s).1.patch := by
  unfold ownXpRamp
  obtain _ | _ := body.bind readXpRampFields
  · exact h
  · exact moves_writePair h _ _ _ (fun r => .ramp _) (fun _ => ⟨rfl, rfl⟩) fun _ => id

theorem moves_ownPatchDiscard (body : Option Unit) (h : Moves p₀ s.patch) : Moves p₀ (ownPatchDiscard body s).1.patch :=
  match body with
  | none => h
  | some _ => .ite (fun _ => h) fun opened => h.tail (.edited (unsealed_of_not opened) .discarded)

theorem moves_takings : ∀ w : Taking, w.act.Keeps fun s => Moves p₀ s.patch := by
  refine Taking.keeps (fun agree h => h.same agree) [.xpAdd, .xpRemove, .xpGain, .xpMute, .xpRamp, .patchCommit, .patchDiscard,
    .ruleWrite, .ruleBlocks, .lawWrite, .surfaceSend, .surfaceConfig, .modeSet, .deviceReset, .storeWrite, .clear] rfl
    ⟨fun body s => moves_ownXpAdd body, fun body s => moves_ownXpRemove body, fun body s => moves_ownXpGain body,
      fun body s => moves_ownXpMute body, fun body s => moves_ownXpRamp body, fun i s h => ?commit,
      fun body s => moves_ownPatchDiscard body, fun body s h => ?rule, fun body s h => ?blocks,
      fun body s h => ?law, fun body s h => ?send, fun body s h => ?config, fun mode s h => ?mode, fun body s h => ?reset,
      fun i s h => ?store, fun g s h => ?clear, trivial⟩
  case commit =>
    obtain ⟨tag, body⟩ := i
    show Moves p₀ (ownPatchCommit tag body s).1.patch
    obtain _ | _ := body
    · exact h
    · refine .ite (fun _ => h) fun _ => .ite (fun _ => h) fun _ => ?_
      cases accepted : validateEdits 0 (s.engine.table.map (·.destination)) s.engine.edits with
      | none => exact h.tail (.accepted _ accepted)
      | some => exact h
  case rule =>
    show Moves p₀ (ownRuleWrite body s).1.patch
    obtain _ | b := body
    · exact h
    · exact .ite (fun _ => h) fun _ => by obtain _ | _ := readRule b <;> exact h
  case blocks =>
    show Moves p₀ (ownRuleBlocks body s).1.patch
    obtain _ | b := body
    · exact h
    · exact .ite (fun _ => h) fun _ => by obtain _ | _ := readBlock s.rules b <;> exact h
  case law =>
    show Moves p₀ (ownLawWrite body s).1.patch
    obtain _ | b := body
    · exact h
    · exact .ite (fun _ => h) fun _ => .ite (fun accepted => h.tail (.lawWritten _ accepted.2.2)) fun _ => h
  case send =>
    show Moves p₀ (ownSurfaceSend body s).1.patch
    unfold ownSurfaceSend
    obtain _ | b := body.bind readSend
    · exact h
    · exact .ite (fun _ => h.tail (.joined (joins_offerUpdate ..))) fun _ => h
  case config =>
    show Moves p₀ (ownSurfaceConfig body s).1.patch
    unfold ownSurfaceConfig
    obtain _ | b := body
    · exact h
    · dsimp only
      obtain _ | i := surfaceOf b.link
      · exact h
      obtain _ | ms := within 1 64 b.interval
      · exact h
      · exact h.surface i (fun f => { f with stored := ms }) fun _ => id
  case mode =>
    show Moves p₀ (ownModeSet mode s).1.patch
    unfold ownModeSet
    obtain _ | _ | _ := mode.bind modeOf
    · exact h
    · exact .due (fun _ => h) fun _ => Moves.same (h.tail .setup) ((moveLinks_touches _).agree Bool.false_ne_true)
    · exact .due (fun _ => h) fun setup => Moves.same (h.tail (.operate setup)) ((moveLinks_touches _).agree Bool.false_ne_true)
  case reset =>
    show Moves p₀ (ownDeviceReset body s).1.patch
    obtain _ | _ := body
    · exact h
    · exact .ite (fun _ => h) fun _ => h
  case store =>
    obtain ⟨tag, body⟩ := i
    show Moves p₀ (ownStoreWrite tag body s).1.patch
    obtain _ | b := body
    · exact h
    · refine .ite (fun _ => h) fun _ => ?_
      obtain _ | _ := readFlags b
      · exact h
      · exact .ite (fun _ => h) fun few => h.tail (.storing few ..)
  case clear =>
    have clips (f : Engine → Vector Nat 528) : Moves p₀ (s.onEngine fun e => { e with clips := f e }).patch := h
    show Moves p₀ (clearGroup s g).patch
    cases g with
    | clip => exact clips _
    | surface i => exact h.surface i _ fun _ => id
    | _ => exact h

/-! ### The surfaces and the rules -/

/-- What a message in OPERATE from an ONLINE link acts on (R124, R151). -/
def Acting (link : Fin 4) (p₀ p : Patch) : Prop := (p.online link ∧ p.mode = .operate) ∧ Moves p₀ p

section Actions

variable {link : Fin 4}

theorem Acting.wrote {p : Patch} (h : Acting link p₀ p) {f : Crosspoint → Crosspoint} (each : ∀ r, RecordWrite p r (f r))
    (src dst : Slot) : Acting link p₀ { p with table := updateRecord src dst f p.table } :=
  ⟨h.1, h.2.wrote each _⟩

theorem Acting.ite {c : Prop} [Decidable c] {a b : State} (yes : c → Acting link p₀ a.patch)
    (no : ¬ c → Acting link p₀ b.patch) : Acting link p₀ (if c then a else b).patch :=
  iteInduction (motive := fun x : State => Acting link p₀ x.patch) yes no

theorem acting_onPair (h : Acting link p₀ s.patch) {src dst : Slot} {f : Crosspoint → State → State}
    (each : ∀ r, Acting link p₀ (f r s).patch) : Acting link p₀ (onPair src dst f s).patch := by
  unfold onPair
  obtain _ | r := findRecord s.engine.table src dst
  · exact h
  · exact each r

theorem acting_surfaceGain (h : Acting link p₀ s.patch) {src dst : Slot} {f : Crosspoint → Crosspoint}
    (each : ∀ r, RecordWrite s.patch r (f r)) : Acting link p₀ (surfaceGain link src dst f s).patch :=
  acting_onPair h fun _ => .ite (fun _ => h.wrote each src dst) fun _ => h

theorem acting_touchPair (h : Acting link p₀ s.patch) {src dst : Slot} (touched : Bool) :
    Acting link p₀ (touchPair link src dst touched s).patch :=
  acting_onPair h fun r => .ite (fun _ => by
      obtain _ | _ := r.owner
      · exact h.wrote (fun _ => .hold h.1.1 h.1.2) src dst
      · exact .ite (fun _ => h) fun _ => h)
    fun _ => .ite (fun _ => h.wrote (fun _ => .release) src dst) fun _ => h

theorem Acting.joins {p q : Patch} (h : Acting link p₀ p) (joins : Joins p q) : Acting link p₀ q := by
  obtain ⟨online, rfl, more⟩ := joins
  exact ⟨⟨more _ h.1.1, h.1.2⟩, h.2.tail (.joined ⟨_, rfl, more⟩)⟩

theorem acting_runAction {m : InMessage} (h : Acting m.link p₀ s.patch) (a : Action) :
    Acting m.link p₀ (runAction m a s).patch := by
  obtain ⟨link, kind, address, value⟩ := m
  cases a with
  | forward =>
    have same (e : SurfaceEvent) : (postEvent e s).patch = s.patch := Agree.patch ((postEvent_touches e s).agree Bool.false_ne_true)
    exact (same _).symm ▸ h
  | driveGain =>
    obtain _ | _ | _ | _ := kind
    · exact acting_surfaceGain h fun r => .drive ..
    · exact acting_touchPair h _
    · exact h
    · exact h
  | nudgeGain =>
    obtain _ | _ | _ | _ := kind
    case turn => exact acting_surfaceGain h fun r => .nudge ..
    all_goals exact h
  | toggleMute =>
    obtain _ | _ | _ | _ := kind
    case press => exact .ite (fun _ => acting_onPair h fun r => h.wrote (fun r => .toggle) _ _) fun _ => h
    all_goals exact h
  | echo =>
    obtain _ | _ | _ | _ := kind
    case position | press => exact h.joins (joins_offerUpdate ..)
    all_goals exact h

theorem acting_actOn {m : InMessage} (h : Acting m.link p₀ s.patch) : Acting m.link p₀ (actOn m s).patch := by
  unfold actOn
  obtain _ | n := winner s.rules m
  · exact h.joins (joins_onSurface _ _ fun _ => id)
  · exact .ite (fun _ => foldl_keeps (Q := fun t => Acting m.link p₀ t.patch) (fun t a k => acting_runAction k a) _ _ h)
      fun _ => h

end Actions

theorem moves_hearMessage (m : InMessage) (clamped : Bool) (h : Moves p₀ s.patch) :
    Moves p₀ (hearMessage m clamped s).patch := by
  refine .due (fun online => ?_) fun _ => h.surface _ _ fun _ => id
  have heard := joins_onSurface (s := s) m.link
    (fun f => { f.counted clamped s.clock.time with silenceStart := s.clock.time }) fun _ => id
  rcases operate : s.device.mode with _ | _
  case operate => exact (acting_actOn (Acting.joins ⟨⟨online, operate⟩, h⟩ heard)).2
  case setup => exact Moves.same (h.tail (.joined heard)) ((postEvent_touches ..).agree Bool.false_ne_true)

/-! ### The events -/

theorem fallbackPatch_store {p : StoredPatch} (installs : fallbackPatch s = some p) : s.device.store = .valid p := by
  revert installs
  unfold fallbackPatch
  have no {q : Prop} (none : Option.none = some p) : q := absurd none.symm (Option.some_ne_none p)
  obtain _ | _ := s.uplink.state
  · exact no
  · obtain _ | q | _ | _ := s.device.store
    case valid => exact fun installs => congrArg _ (Option.some.inj (Option.ite_none_right_eq_some.mp installs).2)
    all_goals exact no

theorem moves_discardRun (i : Fin 4) (kept : List Byte) (h : Moves p₀ s.patch) : Moves p₀ (discardRun i kept s).patch :=
  h.surface i _ fun _ => id

theorem moves_works : ∀ w : Work, w.act.Keeps fun s => Moves p₀ s.patch := by
  refine Work.keeps (fun agree h => h.same agree) [.complete, .hello, .silence, .take, .keepalive, .message, .discard,
    .incompleteRun, .interval, .frameEnd, .commit, .fallback, .report, .work] rfl
    ⟨fun _ s h => ?complete, fun i s h => ?hello, fun i s h => ?silence, takeDecoded_keeps moves_takings,
      fun i s h => ?keepalive, fun i s => moves_hearMessage i.1 i.2, fun i s => moves_discardRun i.1 i.2,
      fun i s h => ?incompleteRun, fun i s h => ?interval, fun _ s h => ?frameEnd, fun _ s h => ?commit,
      fun _ s h => ?fallback, fun _ s h => ?report, fun _ s h => ?work, trivial⟩
  case complete =>
    show Moves p₀ (completeStore s).patch
    unfold completeStore
    rcases writing : s.device.store with _ | _ | ⟨_, _, _⟩ | _
    case writing =>
      exact Moves.same (h.tail (.stored writing)) (((pushReply_touches ..).trans (postAlarm_touches ..)).agree Bool.false_ne_true)
    all_goals exact h
  case hello =>
    have greeted := h.surface i.1 (fun f => (f.counted false s.clock.time).greeted i.2 s.clock.time) fun _ _ => rfl
    exact .due (fun _ => greeted) fun _ => greeted.same ((postAlarm_touches _ _).agree Bool.false_ne_true)
  case silence =>
    refine .due (fun _ => Moves.same (h.tail (.lost i fun j apart online => ?_)) ((postAlarm_touches _ _).agree Bool.false_ne_true))
      fun _ => h
    exact (congrArg Surface.state (modifyEntry_other _ _ _ _ apart)).trans online
  case keepalive =>
    exact h.surface i _ fun x online => (congrArg Surface.state (if_pos online)).trans online
  case incompleteRun => exact .due (fun _ => moves_discardRun i [] h) fun _ => h
  case interval =>
    refine .due (fun _ => h.surface i _ fun x online => ?_) fun _ => h
    have sent : x.send.state = x.state := by
      unfold Surface.send
      obtain _ | _ := x.ackPending
      · obtain _ | _ := chooseUpdate x.updates <;> rfl
      · rfl
    exact (congrArg (fun y : Surface => y.restartInterval.state) (if_pos online)).trans (sent.trans online)
  case frameEnd =>
    show Moves p₀ (endMessage s).patch
    unfold endMessage
    obtain _ | _ | _ | _ := s.mgmt.lane <;> exact h
  case commit =>
    refine .due (fun _ => ?_) fun _ => h
    rcases listSealed : s.engine.commit with _ | tag
    · exact h
    · exact h.tail (.committed listSealed)
  case fallback =>
    refine .due (fun _ => ?_) fun _ => h
    rcases installs : fallbackPatch s with _ | patch
    · exact h
    · exact h.tail (.installed (fallbackPatch_store installs))
  case report =>
    have offers (thresholds : Vector Nat 16) : ∀ (points : List (Nat × MeterPoint)) (t : State), Moves p₀ t.patch →
        Moves p₀ (offerSegments thresholds points t).patch := fun points => by
      induction points with
      | nil => exact fun _ k => k
      | cons p rest ih =>
        intro t k
        refine ih _ ?_
        obtain _ | b := p.2.binding
        · exact k
        · exact k.tail (.joined (joins_offerUpdate ..))
    refine .due (fun _ => Moves.same (offers _ _ _ ?_) ((onMeter_touches _ _).agree Bool.false_ne_true)) fun _ => h
    obtain _ | _ := formReport s.gen.blockNumber s.meter <;> exact h
  case work =>
    have stepped := (h.same ((startLinks_touches s).agree Bool.false_ne_true)).tail (.wrote fun _ => .step)
    show Moves p₀ (periodWork s).patch
    rw [periodWork_eq]
    rw [startLinks_eq] at stepped ⊢
    exact stepped

end Moves

/-- A law that no event of the patch breaks. -/
theorem lawKept_of_events {P : Patch → Prop} (keeps : ∀ {p q}, PatchEvent p q → P p → P q) :
    LawKept [.engine, .surfaces, .rules, .device] fun s => P s.patch := by
  have moved {p q : Patch} (moves : Moves p q) (h : P p) : P q := by
    induction moves with
    | refl => exact h
    | tail _ event ih => exact keeps event ih
  have reads : Reads [.engine, .surfaces, .rules, .device] fun s => P s.patch := fun agree h => by dsimp only; rw [agree.patch]; exact h
  have works (w : Work) : w.act.Keeps fun s => P s.patch := Act.of_runs fun i s h => moved (moves_works w i s .refl) h
  refine ⟨reads, works, fun r s _ h => reads ((arriveRequest_touches r s).agree Bool.false_ne_true) h,
    fun s _ h => reads ((openBlock_touches s).agree Bool.false_ne_true) h, fun s h => ?_,
    fun s _ h => reads ((startPeriod_touches _).agree Bool.false_ne_true) h, fun s h => ?_,
    fun s h => keeps (.restarted (.inr rfl) _ _) h⟩
  · exact iteInduction (motive := fun t : State => P t.patch) (fun _ => keeps (.restarted (.inl rfl) _ _) h) fun _ => h
  · refine powerOn_of_firstPeriod reads s (works .work () _ ?_)
    exact reads ((playTime_touches false _).agree Bool.false_ne_true) (reads ((startAlarms_touches _).agree Bool.false_ne_true)
      (keeps (.restarted (p := s.patch) (.inl rfl) _ _) h))

end Sys2Proof.Machine

/-! Coefficients in range and settled records at their target (R38, R39, R46, R156). -/

namespace Sys2Proof.Machine

open Sys2Proof.Safety

/-- What `GainsSound` asks of a record. -/
structure RecordFits (r : Crosspoint) : Prop where
  setGain : InRange r.setGain
  current : InRange r.current
  remaining : r.remaining ≤ 1024
  settled : r.remaining = 0 → r.current = effectiveTarget r
  automation : ∀ a, r.automation = some a → InRange a.1

theorem forall_eq_none {α : Type} {P : α → Prop} : ∀ a, none = some a → P a :=
  fun a held => absurd held.symm (Option.some_ne_none a)

/-- A write that keeps the gains in range keeps the record: where it moves the target the ramp restarts (R40, R41). -/
theorem retarget_fits {before after : Crosspoint} (h : RecordFits before) (code : RampCode)
    (current : after.current = before.current) (remaining : after.remaining = before.remaining)
    (gain : InRange after.setGain) (automation : ∀ a, after.automation = some a → InRange a.1) :
    RecordFits (retarget code before after) := by
  refine iteInduction (motive := RecordFits) (fun same => ?_) fun _ => ?_
  · exact ⟨gain, current ▸ h.current, remaining ▸ h.remaining,
      fun ended => by rw [same, current, h.settled (remaining ▸ ended)], automation⟩
  · exact ⟨gain, current ▸ h.current, rampLength_le code, fun ended => absurd ended (rampLength_pos code).ne', automation⟩

theorem inRange_zero : InRange 0 := ⟨by decide, by decide⟩

theorem inRange_between {x y z : Int} (hx : InRange x) (hy : InRange y) (low : min x y ≤ z) (high : z ≤ max x y) : InRange z :=
  ⟨(le_min hx.1 hy.1).trans low, high.trans (max_le hx.2 hy.2)⟩

theorem effectiveTarget_inRange {r : Crosspoint} (h : InRange r.setGain) : InRange (effectiveTarget r) := by
  exact iteInduction (motive := InRange) (fun _ => inRange_zero) fun _ => h

theorem rampStep_fits {r : Crosspoint} (h : RecordFits r) : RecordFits (rampStep r) := by
  obtain ⟨-, -, setGain, -, -, -, automation⟩ := rampStep_fields r
  obtain ⟨low, high⟩ := rampStep_between r
  refine ⟨setGain ▸ h.setGain, inRange_between h.current (effectiveTarget_inRange h.setGain) low high,
    (rampStep_remaining r).trans_le ((Nat.sub_le ..).trans h.remaining), fun ended => ?_, automation ▸ h.automation⟩
  rw [rampStep_effectiveTarget]
  obtain resting | runs := r.remaining.eq_zero_or_pos
  · rw [rampStep_resting resting]
    exact h.settled resting
  · exact rampStep_last ((Nat.sub_eq_zero_iff_le.mp ((rampStep_remaining r).symm.trans ended)).antisymm runs)

theorem releaseHold_fits {r : Crosspoint} (h : RecordFits r) : RecordFits (releaseHold r) := by
  unfold releaseHold
  cases held : r.automation with
  | some a => exact retarget_fits h a.2 rfl rfl (h.automation _ held) forall_eq_none
  | none => exact ⟨h.setGain, h.current, h.remaining, h.settled, forall_eq_none⟩

/-- Every entry of the fader law is in range. -/
def LawInRange (law : Vector Int 129) : Prop := ∀ k (h : k < 129), InRange law[k]

/-- An eighth of some eighths of a distance lies within it. -/
theorem eighths_between {e : Int} (sign : 0 ≤ e) {n : Nat} (few : n < 8) :
    0 ≤ (e * (n : Int)).tdiv 8 ∧ (e * (n : Int)).tdiv 8 ≤ e := by
  have positive : 0 ≤ e * (n : Int) := Int.mul_nonneg sign (Int.natCast_nonneg n)
  rw [Int.tdiv_eq_ediv_of_nonneg positive]
  exact ⟨Int.ediv_nonneg positive (by decide), Int.ediv_le_of_le_mul (by decide)
    (Int.mul_le_mul_of_nonneg_left (Int.ofNat_le.mpr few.le) sign)⟩

/-- The coefficient the fader law gives lies between two of its entries (R158). -/
theorem lawCoefficient_inRange {law : Vector Int 129} (h : LawInRange law) (p : Nat) : InRange (lawCoefficient law p) := by
  have entry (i : Nat) : InRange (law[i]?.getD 0) := by
    by_cases below : i < 129
    · rw [Vector.getElem?_eq_getElem below]; exact h i below
    · rw [Vector.getElem?_eq_none (Nat.not_lt.mp below)]; exact inRange_zero
  have low := entry (p / 8)
  have high := entry (p / 8 + 1)
  have few : p % 8 < 8 := Nat.mod_lt _ (by decide)
  unfold lawCoefficient
  dsimp only
  generalize law[p / 8]?.getD 0 = x at *
  generalize law[p / 8 + 1]?.getD 0 = y at *
  obtain upward | downward := Int.le_total x y
  · obtain ⟨above, below⟩ := eighths_between (Int.sub_nonneg_of_le upward) few
    exact ⟨low.1.trans (Int.le_add_of_nonneg_right above),
      (Int.add_le_of_le_sub_left below).trans high.2⟩
  · obtain ⟨above, below⟩ := eighths_between (Int.sub_nonneg_of_le downward) few
    rw [← Int.neg_sub x y, Int.neg_mul, Int.neg_tdiv, ← Int.sub_eq_add_neg]
    exact ⟨high.1.trans (Int.le_sub_left_of_add_le (Int.add_le_of_le_sub_right below)),
      (Int.sub_le_self _ above).trans low.2⟩

theorem RecordWrite.fits {p : Patch} (law : LawInRange p.law) {r q : Crosspoint} (write : RecordWrite p r q)
    (h : RecordFits r) : RecordFits q := by
  induction write with
  | kept => exact h
  | gain code range =>
    unfold writeGain
    cases r.owner with
    | none => exact retarget_fits h code rfl rfl range h.automation
    | some =>
      exact ⟨h.setGain, h.current, h.remaining, h.settled, fun a held => Option.some.inj held ▸ range⟩
  | mute | toggle => exact retarget_fits h _ rfl rfl h.setGain h.automation
  | ramp => exact ⟨h.setGain, h.current, h.remaining, h.settled, h.automation⟩
  | hold => exact ⟨h.setGain, h.current, h.remaining, h.settled, forall_eq_none⟩
  | revive range =>
    unfold reviveRecord
    cases r.owner with
    | none => exact retarget_fits h _ rfl rfl range h.automation
    | some => exact retarget_fits h _ rfl rfl h.setGain fun a held => Option.some.inj held ▸ range
  | drive value code => exact retarget_fits h code rfl rfl (lawCoefficient_inRange law value) h.automation
  | nudge turn step =>
    have bounded : InRange (Machine.nudge r.setGain turn step) := by
      rw [Machine.nudge, saturate_eq (by decide)]
      exact ⟨le_max_left .., max_le (by decide) (min_le_left ..)⟩
    exact retarget_fits h _ rfl rfl bounded h.automation
  | release => exact releaseHold_fits h
  | step => exact rampStep_fits h

/-- The gain of every pending ADD stays in range. -/
theorem ListWrite.inRange {p : Patch} {edits : List Edit} (write : ListWrite p edits)
    (h : ∀ d ∈ p.edits, EditInRange d) : ∀ d ∈ edits, EditInRange d := by
  induction write with
  | dropped => exact fun d m => h d (List.mem_of_mem_filter m)
  | discarded => exact fun _ m => absurd m List.not_mem_nil
  | appended room range => exact List.forall_mem_append.mpr ⟨h, List.forall_mem_singleton.mpr range⟩
  | rewrote pair range => exact List.forall_mem_map.mpr fun d m => range d (h d m)

/-- Every entry of the patch the store holds is in range. -/
def StoreInRange : Store → Prop
  | .valid p | .writing p _ _ => ∀ x ∈ p.records, InRange x.setGain
  | .empty | .incomplete => True

/-- `GainsSound` by the parts it reads. -/
structure GainsLaw (p : Patch) : Prop where
  records : ∀ r ∈ p.table, RecordFits r
  edits : ∀ d ∈ p.edits, EditInRange d
  store : StoreInRange p.store
  law : LawInRange p.law

theorem gainsSound_iff (s : State) : GainsSound s ↔ GainsLaw s.patch := by
  constructor
  · intro h
    refine ⟨fun r m => ?_, fun d m x same => h.edits x (same ▸ m), ?_, h.law⟩
    · obtain ⟨setGain, current, remaining⟩ := h.records r m
      exact ⟨setGain, current, remaining, h.settled r m, h.automation r m⟩
    · show StoreInRange s.device.store
      cases e : s.device.store with
      | valid p => exact h.valid p e
      | writing p tag since => exact h.writing p tag since e
      | empty | incomplete => trivial
  · intro h
    have store : StoreInRange s.device.store := h.store
    exact ⟨fun r m => ⟨(h.records r m).setGain, (h.records r m).current, (h.records r m).remaining⟩,
      fun r m => (h.records r m).settled, fun r m => (h.records r m).automation, fun x m => h.edits _ m x rfl,
      fun p e => by rw [e] at store; exact store, fun p tag since e => by rw [e] at store; exact store, h.law⟩

theorem joinRecord_fits {x : PatchEntry} (range : InRange x.setGain) : RecordFits (joinRecord x) :=
  ⟨range, inRange_zero, rampLength_le _, fun ended => absurd ended (rampLength_pos _).ne', forall_eq_none⟩

theorem applyEdits_fits {edits : List Edit} (range : ∀ d ∈ edits, EditInRange d) {table : List Crosspoint}
    (h : ∀ r ∈ table, RecordFits r) : ∀ r ∈ edits.foldl applyEdit table, RecordFits r := by
  induction edits generalizing table with
  | nil => exact h
  | cons d edits ih =>
    refine ih (fun e m => range e (.tail _ m)) fun r m => ?_
    cases d with
    | add x =>
      obtain rfl | m := mem_insertRecord.mp m
      · exact joinRecord_fits (range _ (.head _) x rfl)
      · exact h r m
    | remove => exact h r (List.mem_of_mem_filter m)

theorem startTable_fits {x : Store} (h : StoreInRange x) : ∀ r ∈ startTable x.autostart, RecordFits r := by
  cases x with
  | valid p =>
    exact iteInduction (motive := fun start => ∀ r ∈ startTable start, RecordFits r)
      (fun _ => List.forall_mem_map.mpr fun x m => joinRecord_fits (h x m)) fun _ _ m => absurd m List.not_mem_nil
  | empty | writing | incomplete => exact fun _ m => absurd m List.not_mem_nil

theorem storeInRange_cut {x : Store} (h : StoreInRange x) : StoreInRange x.cut := by
  cases x with
  | valid => exact h
  | empty | writing | incomplete => trivial

theorem lawInRange_reset : LawInRange RuleUnit.reset.law := fun k h => by
  have entry : RuleUnit.reset.law[k] = (k : Int) * 8192 := tabulate_getElem _ _ _ h
  rw [entry]
  exact ⟨(by decide : (-8388608 : Int) ≤ 0).trans (Int.mul_nonneg (Int.natCast_nonneg k) (by decide)),
    (Int.mul_le_mul_of_nonneg_right (Int.ofNat_le.mpr h.le) (by decide)).trans (by decide : (129 * 8192 : Int) ≤ _)⟩

theorem writeLaw_inRange {law : Vector Int 129} (h : LawInRange law) (start : Nat) {entries : List Int}
    (range : entries.all coeffInRange = true) : LawInRange (writeLaw start entries law) := fun k hk => by
  rw [writeLaw, tabulate_getElem]
  split
  · rw [List.getD_eq_getElem?_getD]
    cases read : entries[k - start]? with
    | none => exact inRange_zero
    | some x =>
      have bounds : -8388608 ≤ x ∧ x ≤ 8388607 :=
        of_decide_eq_true (List.all_eq_true.mp range x (List.mem_of_getElem? read))
      exact bounds
  · rw [Vector.getElem?_eq_getElem hk]; exact h k hk

theorem gains_event {p q : Patch} (event : PatchEvent p q) (h : GainsLaw p) : GainsLaw q := by
  obtain ⟨records, edits, store, law⟩ := h
  have released {c : Crosspoint → Prop} [DecidablePred c] :
      ∀ r ∈ p.table.map fun r => if c r then releaseHold r else r, RecordFits r :=
    List.forall_mem_map.mpr fun r m => iteInduction (fun _ => releaseHold_fits (records r m)) fun _ => records r m
  induction event with
  | wrote each => exact ⟨List.forall_mem_map.mpr fun r m => (each r).fits law (records r m), edits, store, law⟩
  | edited _ write => exact ⟨records, write.inRange edits, store, law⟩
  | lawWritten start range => exact ⟨records, edits, store, writeLaw_inRange law start range⟩
  | setup | lost => exact ⟨released, edits, store, law⟩
  | storing => exact ⟨records, edits, List.forall_mem_map.mpr fun r m => (records r m).setGain, law⟩
  | stored writing => exact ⟨records, edits, by rw [writing] at store; exact store, law⟩
  | joined joins =>
    obtain ⟨_, rfl, -⟩ := joins
    exact ⟨records, edits, store, law⟩
  | committed => exact ⟨applyEdits_fits edits records, fun _ m => absurd m List.not_mem_nil, store, law⟩
  | installed stored =>
    have entries := store
    rw [stored] at entries
    exact ⟨List.forall_mem_map.mpr fun x m => joinRecord_fits (entries x m), fun _ m => absurd m List.not_mem_nil, store, law⟩
  | restarted starts =>
    have kept := storeInRange_cut store
    refine ⟨?_, fun _ m => absurd m List.not_mem_nil, kept, lawInRange_reset⟩
    obtain rfl | rfl := starts
    · exact startTable_fits kept
    · exact fun _ m => absurd m List.not_mem_nil
  | accepted | operate => exact ⟨records, edits, store, law⟩

/-- Settles O10: a write that moves a record's target restarts its ramp, and the last step of a ramp reaches the target. -/
theorem stepKeepsGainsSound : Obligations.StepKeepsGainsSound := fun s t h steps =>
  (gainsSound_iff t).mpr (step_keeps (lawKept_of_events gains_event) ((gainsSound_iff s).mp h) steps)

end Sys2Proof.Machine

/-! Touch holds belong to ONLINE links in OPERATE (R16, R151, R153). -/

namespace Sys2Proof.Machine

open Sys2Proof.Safety

/-- A record is held by none but these links, and only a held one has an automation gain. -/
def HeldBy (links : Fin 4 → Prop) (r : Crosspoint) : Prop :=
  (∀ i, r.owner = some i → links i) ∧ (r.automation.isSome → r.owner.isSome)

/-- The links that may hold a record. -/
def Patch.mayHold (p : Patch) (i : Fin 4) : Prop := p.online i ∧ p.mode = .operate

section Records

variable {links : Fin 4 → Prop} {r : Crosspoint}

theorem HeldBy.of_same (h : HeldBy links r) {q : Crosspoint} (owner : q.owner = r.owner)
    (automation : q.automation = r.automation) : HeldBy links q := by
  unfold HeldBy
  rw [owner, automation]
  exact h

theorem heldBy_none {q : Crosspoint} (owner : q.owner = none) (automation : q.automation = none) : HeldBy links q := by
  unfold HeldBy
  rw [owner, automation]
  exact ⟨forall_eq_none, fun some => absurd some Bool.false_ne_true⟩

theorem HeldBy.retarget (h : HeldBy links r) {q : Crosspoint} (code : RampCode) (owner : q.owner = r.owner)
    (automation : q.automation = r.automation) : HeldBy links (retarget code r q) :=
  iteInduction (motive := HeldBy links) (fun _ => h.of_same owner automation) fun _ => h.of_same owner automation

/-- A released record is held by none (R152). -/
theorem heldBy_releaseHold (r : Crosspoint) : HeldBy links (releaseHold r) := by
  unfold releaseHold
  cases unset : r.automation with
  | some => exact iteInduction (motive := HeldBy links) (fun _ => heldBy_none rfl rfl) fun _ => heldBy_none rfl rfl
  | none => exact heldBy_none rfl rfl

/-- A held record takes a gain write as its automation gain (R19, R27). -/
theorem HeldBy.automated (h : HeldBy links r) {q : Crosspoint} {i : Fin 4} (held : r.owner = some i)
    (owner : q.owner = r.owner) : HeldBy links q :=
  ⟨fun j same => h.1 j (owner ▸ same), fun _ => Option.isSome_of_eq_some (owner.trans held)⟩

theorem RecordWrite.held {p : Patch} {q : Crosspoint} (write : RecordWrite p r q) (h : HeldBy p.mayHold r) :
    HeldBy p.mayHold q := by
  induction write with
  | kept => exact h
  | gain code =>
    unfold writeGain
    cases held : r.owner with
    | none => exact h.retarget code held.symm rfl
    | some => exact h.automated held held.symm
  | revive =>
    unfold reviveRecord
    cases held : r.owner with
    | none => exact h.retarget _ held.symm rfl
    | some =>
      exact iteInduction (motive := HeldBy p.mayHold) (fun _ => h.automated held held.symm) fun _ => h.automated held held.symm
  | mute | drive | nudge | toggle => exact h.retarget _ rfl rfl
  | ramp => exact h.of_same rfl rfl
  | hold online operate =>
    exact ⟨fun i same => Option.some.inj same ▸ ⟨online, operate⟩, fun some => absurd some Bool.false_ne_true⟩
  | release => exact heldBy_releaseHold r
  | step =>
    obtain ⟨-, -, -, -, -, owner, automation⟩ := rampStep_fields r
    exact h.of_same owner automation

theorem applyEdits_held {edits : List Edit} {table : List Crosspoint} (h : ∀ r ∈ table, HeldBy links r) :
    ∀ r ∈ edits.foldl applyEdit table, HeldBy links r := by
  induction edits generalizing table with
  | nil => exact h
  | cons d edits ih =>
    refine ih fun r m => ?_
    cases d with
    | add x =>
      obtain rfl | m := mem_insertRecord.mp m
      · exact heldBy_none rfl rfl
      · exact h r m
    | remove => exact h r (List.mem_of_mem_filter m)

theorem startTable_held (patch : Option StoredPatch) : ∀ r ∈ startTable patch, HeldBy links r := by
  cases patch with
  | some p => exact List.forall_mem_map.mpr fun x _ => heldBy_none rfl rfl
  | none => exact fun _ m => absurd m List.not_mem_nil

end Records

/-- `HoldsSound` by the patch. -/
def HoldsLaw (p : Patch) : Prop := ∀ r ∈ p.table, HeldBy p.mayHold r

theorem holds_event {p q : Patch} (event : PatchEvent p q) (h : HoldsLaw p) : HoldsLaw q := by
  induction event with
  | wrote each => exact List.forall_mem_map.mpr fun r m => (each r).held (h r m)
  | edited | accepted | lawWritten | storing | stored => exact h
  | setup =>
    refine List.forall_mem_map.mpr fun r m => iteInduction (fun _ => heldBy_releaseHold r) fun free => ?_
    exact ⟨fun i held => absurd (Option.isSome_of_eq_some held) free, (h r m).2⟩
  | operate setup => exact fun r m => ⟨fun i held => absurd ((h r m).1 i held).2 setup, (h r m).2⟩
  | joined joins =>
    obtain ⟨_, rfl, more⟩ := joins
    exact fun r m => ⟨fun i held => ⟨more i ((h r m).1 i held).1, ((h r m).1 i held).2⟩, (h r m).2⟩
  | lost i others =>
    refine List.forall_mem_map.mpr fun r m => iteInduction (fun _ => heldBy_releaseHold r) fun other => ?_
    refine ⟨fun j held => ⟨others j (fun same => other (same ▸ held)) ((h r m).1 j held).1, ((h r m).1 j held).2⟩, (h r m).2⟩
  | committed => exact applyEdits_held h
  | installed => exact List.forall_mem_map.mpr fun x _ => heldBy_none rfl rfl
  | restarted starts =>
    obtain rfl | rfl := starts
    · exact startTable_held _
    · exact startTable_held none

/-- Settles O5: a hold is claimed by an ONLINE link in OPERATE, and what ends either releases it. -/
theorem stepKeepsHoldsSound : Obligations.StepKeepsHoldsSound := fun _ _ h steps =>
  step_keeps (lawKept_of_events holds_event) h steps

end Sys2Proof.Machine

/-! The patch table, the change list and the store stay sound (R15, R25, R31, R186). -/

namespace Sys2Proof.Machine

open Sys2Proof.Safety

/-- `PatchSound` by the patch. -/
structure PatchLaw (p : Patch) : Prop where
  sorted : TableSorted p.table
  limits : WithinLimits (p.table.map (·.destination))
  few : p.edits.length ≤ 64
  distinct : p.edits.Pairwise fun a b => a.is b.source b.destination = false
  fits : ∀ d ∈ p.edits, EditFits p.table d
  accepted : p.commit.isSome → validateEdits 0 (p.table.map (·.destination)) p.edits = none
  store : StoreFits p.store

theorem patchSound_iff (s : State) : PatchSound s ↔ PatchLaw s.patch :=
  ⟨fun h => ⟨h.sorted, h.limits, h.edits, h.distinct, h.fits, h.accepted, h.store⟩,
    fun h => ⟨h.sorted, h.limits, h.few, h.distinct, h.fits, h.accepted, h.store⟩⟩

/-- The write leaves every record its pair. -/
def KeepsPair (f : Crosspoint → Crosspoint) : Prop := ∀ r, (f r).source = r.source ∧ (f r).destination = r.destination

theorem retarget_pair (code : RampCode) {r q : Crosspoint} (source : q.source = r.source)
    (destination : q.destination = r.destination) :
    (retarget code r q).source = r.source ∧ (retarget code r q).destination = r.destination :=
  iteInduction (motive := fun x : Crosspoint => x.source = r.source ∧ x.destination = r.destination)
    (fun _ => ⟨source, destination⟩) fun _ => ⟨source, destination⟩

theorem keepsPair_releaseHold : KeepsPair releaseHold := fun r =>
  ⟨(releaseHold_fields r).1, (releaseHold_fields r).2.1⟩

theorem RecordWrite.pair {p : Patch} {r q : Crosspoint} (write : RecordWrite p r q) :
    q.source = r.source ∧ q.destination = r.destination := by
  induction write with
  | kept | ramp | hold => exact ⟨rfl, rfl⟩
  | gain code =>
    unfold writeGain
    cases r.owner with
    | none => exact retarget_pair code rfl rfl
    | some => exact ⟨rfl, rfl⟩
  | revive =>
    unfold reviveRecord
    cases r.owner <;> exact retarget_pair _ rfl rfl
  | mute | drive | nudge | toggle => exact retarget_pair _ rfl rfl
  | release => exact keepsPair_releaseHold r
  | step => exact ⟨(rampStep_fields r).1, (rampStep_fields r).2.1⟩

theorem keepsPair_where {f : Crosspoint → Crosspoint} (keeps : KeepsPair f) (p : Crosspoint → Prop) [DecidablePred p] :
    KeepsPair fun r => if p r then f r else r := fun r => by
  exact iteInduction (motive := fun x : Crosspoint => x.source = r.source ∧ x.destination = r.destination)
    (fun _ => keeps r) fun _ => ⟨rfl, rfl⟩

theorem findRecord_map {f : Crosspoint → Crosspoint} (keeps : KeepsPair f) (table : List Crosspoint) (src dst : Slot) :
    findRecord (table.map f) src dst = (findRecord table src dst).map f := by
  have same : (fun r : Crosspoint => r.is src dst) ∘ f = fun r => r.is src dst := funext fun r => by
    simp only [Function.comp_apply, Crosspoint.is, (keeps r).1, (keeps r).2]
  unfold findRecord
  rw [List.find?_map, same]

/-- A write of the records alone leaves the table sound, and the change list with it. -/
theorem PatchLaw.onTable {p : Patch} (h : PatchLaw p) {f : Crosspoint → Crosspoint} (keeps : KeepsPair f) (mode : Mode)
    (online : Fin 4 → Prop) : PatchLaw { p with table := p.table.map f, mode := mode, online := online } := by
  have destinations : (p.table.map f).map (·.destination) = p.table.map (·.destination) := by
    rw [List.map_map]
    exact List.map_congr_left fun r _ => (keeps r).2
  refine ⟨map_sorted keeps h.sorted, destinations ▸ h.limits, h.few, h.distinct, fun d m => ?_,
    destinations ▸ h.accepted, h.store⟩
  have fit := h.fits d m
  cases d with
  | add x =>
    have free : findRecord p.table x.source x.destination = none := fit
    exact (findRecord_map keeps ..).trans (by rw [free]; rfl)
  | remove src dst =>
    have held : (findRecord p.table src dst).isSome = true := fit
    exact (congrArg Option.isSome (findRecord_map keeps ..)).trans (by rw [Option.isSome_map, held])

/-- An unsealed change list may be any that fits the table. -/
theorem PatchLaw.withEdits {p : Patch} (h : PatchLaw p) (unsealed : p.commit = none) {edits : List Edit}
    (few : edits.length ≤ 64) (distinct : edits.Pairwise fun a b => a.is b.source b.destination = false)
    (fits : ∀ d ∈ edits, EditFits p.table d) : PatchLaw { p with edits := edits } :=
  ⟨h.sorted, h.limits, few, distinct, fits,
    fun listSealed => absurd unsealed (Option.ne_none_iff_isSome.mpr listSealed), h.store⟩

theorem ListWrite.law {p : Patch} {edits : List Edit} (write : ListWrite p edits) (unsealed : p.commit = none)
    (h : PatchLaw p) : PatchLaw { p with edits := edits } := by
  induction write with
  | dropped =>
    exact h.withEdits unsealed ((List.length_filter_le ..).trans h.few) (h.distinct.filter _)
      fun d m => h.fits d (List.mem_of_mem_filter m)
  | discarded => exact h.withEdits unsealed (Nat.zero_le _) .nil fun _ m => absurd m List.not_mem_nil
  | appended room _ fit new =>
    refine h.withEdits unsealed (List.length_append.trans_le room) ?_
      (List.forall_mem_append.mpr ⟨h.fits, List.forall_mem_singleton.mpr fit⟩)
    refine List.pairwise_append.mpr ⟨h.distinct, List.pairwise_singleton .., fun a m b only => ?_⟩
    obtain rfl := List.mem_singleton.mp only
    exact decide_eq_false (findEdit_none.mp (new h.fits) a m)
  | rewrote pair _ fits =>
    refine h.withEdits unsealed ((List.length_map ..).trans_le h.few) (List.pairwise_map.mpr (h.distinct.imp ?_))
      (List.forall_mem_map.mpr fun d m => fits d (h.fits d m))
    intro a b apart
    unfold Edit.is at *
    rw [(pair a).1, (pair a).2, (pair b).1, (pair b).2]
    exact apart

/-! ### A commit keeps the limits (R15, R31, R33) -/

theorem insertRecord_perm (r : Crosspoint) (table : List Crosspoint) : (insertRecord r table).Perm (r :: table) := by
  induction table with
  | nil => exact .refl _
  | cons x xs ih =>
    unfold insertRecord
    split
    · exact .refl _
    · exact (ih.cons x).trans (.swap r x xs)

theorem apart_of_before {a b : Crosspoint} (h : a.before b = true) :
    (!a.is b.source b.destination) = true ∧ (!b.is a.source a.destination) = true := by
  have apart : ¬ (a.source = b.source ∧ a.destination = b.destination) := fun ⟨source, destination⟩ => by
    have before := (Crosspoint.before_iff a b).mp h
    rw [source, destination] at before
    exact before.elim (Nat.lt_irrefl _) fun both => Nat.lt_irrefl _ both.2
  exact ⟨congrArg Bool.not (decide_eq_false apart),
    congrArg Bool.not (decide_eq_false fun same => apart ⟨same.1.symm, same.2.symm⟩)⟩

/-- A table in order holds one record of a pair, so that its removal takes out one. -/
theorem eraseRecord_perm {r : Crosspoint} {table : List Crosspoint} (sorted : TableSorted table) (m : r ∈ table) :
    table.Perm (r :: eraseRecord r.source r.destination table) := by
  induction table with
  | nil => cases m
  | cons x xs ih =>
    obtain ⟨first, rest⟩ := List.pairwise_cons.mp sorted
    obtain rfl | m := List.mem_cons.mp m
    · have others : eraseRecord r.source r.destination xs = xs :=
        List.filter_eq_self.mpr fun q hq => (apart_of_before (first q hq)).2
      have taken : eraseRecord r.source r.destination (r :: xs) = eraseRecord r.source r.destination xs :=
        List.filter_cons_of_neg (by simp [Crosspoint.is])
      rw [taken, others]
    · have stays : eraseRecord r.source r.destination (x :: xs) = x :: eraseRecord r.source r.destination xs :=
        List.filter_cons_of_pos (apart_of_before (first r m)).1
      rw [stays]
      exact ((ih rest m).cons x).trans (.swap ..)

/-- The destinations an edit leaves, from those the walk of R31 has counted. -/
theorem applyEdit_destinations {d : Edit} {table : List Crosspoint} (sorted : TableSorted table) (fits : EditFits table d)
    {held : List Slot} (counted : (table.map (·.destination)).Perm held) :
    ((applyEdit table d).map (·.destination)).Perm (afterEdits held [d]) := by
  cases d with
  | add x => exact ((insertRecord_perm (joinRecord x) table).map _).trans (counted.cons _)
  | remove src dst =>
    obtain ⟨r, found⟩ := Option.isSome_iff_exists.mp (show (findRecord table src dst).isSome = true from fits)
    obtain ⟨m, rfl, rfl⟩ := findRecord_some found
    have without := ((eraseRecord_perm sorted m).map (·.destination)).erase r.destination
    rw [List.map_cons, List.erase_cons_head] at without
    exact without.symm.trans (counted.erase _)

theorem withinLimits_perm {a b : List Slot} (same : a.Perm b) (h : WithinLimits a) : WithinLimits b :=
  ⟨same.length_eq ▸ h.1, fun d => same.count_eq d ▸ h.2 d⟩

/-- One edit of an accepted list passes neither limit (R31). -/
theorem withinLimits_afterEdit {held : List Slot} {d : Edit} (h : WithinLimits held)
    (total : (afterEdits held [d]).length ≤ 1024) (here : (afterEdits held [d]).count d.destination ≤ 64) :
    WithinLimits (afterEdits held [d]) := by
  refine ⟨total, fun slot => ?_⟩
  by_cases same : slot = d.destination
  · exact same ▸ here
  · refine le_trans ?_ (h.2 slot)
    cases d with
    | add x => exact (List.count_cons_of_ne (Ne.symm same)).le
    | remove src dst => exact List.erase_sublist.count_le _

theorem commit_limits {edits : List Edit} {table : List Crosspoint} {held : List Slot} {pos : Nat}
    (sorted : TableSorted table) (apart : edits.Pairwise fun a b => a.is b.source b.destination = false)
    (fits : ∀ d ∈ edits, EditFits table d) (counted : (table.map (·.destination)).Perm held) (h : WithinLimits held)
    (accepted : validateEdits pos held edits = none) :
    WithinLimits ((edits.foldl applyEdit table).map (·.destination)) := by
  induction edits generalizing table held pos with
  | nil => exact withinLimits_perm counted.symm h
  | cons d edits ih =>
    obtain ⟨others, apart⟩ := List.pairwise_cons.mp apart
    obtain ⟨fit, fits⟩ := List.forall_mem_cons.mp fits
    have walked : validateEdits pos held (d :: edits) =
        if 1024 < (afterEdits held [d]).length then some (pos, d, .total)
        else if 64 < (afterEdits held [d]).count d.destination then some (pos, d, .destination)
        else validateEdits (pos + 1) (afterEdits held [d]) edits := by cases d <;> rfl
    rw [walked] at accepted
    split at accepted
    · cases accepted
    · next total =>
      split at accepted
      · cases accepted
      · next here =>
        exact ih (applyEdit_sorted sorted fit) apart (fun e m => editFits_applyEdit (others e m) (fits e m))
          (applyEdit_destinations sorted fit counted)
          (withinLimits_afterEdit h (Nat.not_lt.mp total) (Nat.not_lt.mp here)) accepted

/-- A table that takes the place of the active one, the change list empty and unsealed. -/
theorem patchLaw_installed {p : Patch} (starts : TableSorted p.table ∧ WithinLimits (p.table.map (·.destination)))
    (store : StoreFits p.store) (edits : p.edits = []) (commit : p.commit = none) : PatchLaw p :=
  ⟨starts.1, starts.2, by rw [edits]; exact Nat.zero_le _, by rw [edits]; exact .nil,
    by rw [edits]; exact fun _ m => absurd m List.not_mem_nil,
    fun listSealed => absurd commit (Option.ne_none_iff_isSome.mpr listSealed), store⟩

theorem storedTable_sound {p : StoredPatch} (h : PatchFits p) :
    TableSorted (p.records.map joinRecord) ∧ WithinLimits ((p.records.map joinRecord).map (·.destination)) := by
  obtain ⟨sorted, few, each⟩ := h
  refine ⟨sorted, ?_, fun d => ?_⟩
  · rw [List.length_map, List.length_map]
    exact few.trans (by decide)
  · rw [List.map_map]
    exact each d

theorem startTable_sound {x : Store} (h : StoreFits x) :
    TableSorted (startTable x.autostart) ∧ WithinLimits ((startTable x.autostart).map (·.destination)) := by
  have empty : TableSorted (startTable none) ∧ WithinLimits ((startTable none).map (·.destination)) :=
    ⟨.nil, Nat.zero_le _, fun _ => Nat.zero_le _⟩
  cases x with
  | valid p =>
    have table : Store.autostart (.valid p) = if p.autostart then some p else none := rfl
    rw [table]
    by_cases set : p.autostart = true
    · rw [if_pos set]; exact storedTable_sound h
    · rw [if_neg set]; exact empty
  | empty | writing | incomplete => exact empty

theorem storeFits_cut {x : Store} (h : StoreFits x) : StoreFits x.cut := by
  cases x with
  | valid => exact h
  | empty | writing | incomplete => trivial

/-! ### The law -/

theorem patch_event {p q : Patch} (event : PatchEvent p q) (h : PatchLaw p) : PatchLaw q := by
  induction event with
  | wrote each => exact h.onTable (fun r => (each r).pair) _ _
  | edited unsealed write => exact write.law unsealed h
  | accepted tag accepted => exact ⟨h.sorted, h.limits, h.few, h.distinct, h.fits, fun _ => accepted, h.store⟩
  | lawWritten | operate => exact ⟨h.sorted, h.limits, h.few, h.distinct, h.fits, h.accepted, h.store⟩
  | setup | lost => exact h.onTable (keepsPair_where keepsPair_releaseHold _) _ _
  | storing few =>
    refine ⟨h.sorted, h.limits, h.few, h.distinct, h.fits, h.accepted, ?_, ?_, fun d => ?_⟩
    · rw [List.map_map]
      exact map_sorted (f := joinRecord ∘ storeRecord) (fun r => ⟨rfl, rfl⟩) h.sorted
    · rw [List.length_map]
      exact Nat.not_lt.mp few
    · rw [List.map_map]
      exact h.limits.2 d
  | stored writing =>
    have fits := h.store
    rw [writing] at fits
    exact ⟨h.sorted, h.limits, h.few, h.distinct, h.fits, h.accepted, fits⟩
  | joined joins =>
    obtain ⟨_, rfl, -⟩ := joins
    exact ⟨h.sorted, h.limits, h.few, h.distinct, h.fits, h.accepted, h.store⟩
  | committed listSealed =>
    exact patchLaw_installed ⟨(foldl_applyEdit h.sorted h.distinct h.fits).1,
      commit_limits h.sorted h.distinct h.fits (.refl _) h.limits (h.accepted (Option.isSome_of_eq_some listSealed))⟩
      h.store rfl rfl
  | installed stored =>
    have valid := h.store
    rw [stored] at valid
    exact patchLaw_installed (storedTable_sound valid) h.store rfl rfl
  | restarted starts =>
    have kept := storeFits_cut h.store
    refine patchLaw_installed ?_ kept rfl rfl
    obtain rfl | rfl := starts
    · exact startTable_sound kept
    · exact startTable_sound (x := .empty) trivial

/-- Settles O4: a write keeps every record's pair, and a commit applies a list that fits and that R31 has accepted. -/
theorem stepKeepsPatchSound : Obligations.StepKeepsPatchSound := fun s t h steps =>
  (patchSound_iff t).mpr (step_keeps (lawKept_of_events patch_event) ((patchSound_iff s).mp h) steps)

end Sys2Proof.Machine

/-! The taking of requests (R170). -/

namespace Sys2Proof.Machine

open Sys2Proof.Safety

theorem hearFrame_requests (s : State) : (hearFrame s).mgmt.requests = s.mgmt.requests := by
  unfold hearFrame
  dsimp only
  split <;> rfl

theorem taken_places {s : State} {r : RequestFrame} {rest : List RequestFrame} (waiting : s.mgmt.requests = r :: rest) :
    placesInUse (taken rest s) + 1 = placesInUse s := by
  unfold placesInUse
  rw [waiting, List.length_cons]
  show rest.length + inFlight s + _ + _ + 1 = _
  rw [Nat.add_right_comm _ _ 1, Nat.add_right_comm _ _ 1, Nat.add_right_comm _ _ 1]
  rfl

/-- A body of the wrong length leaves its owner nothing to do but to answer RANGE. -/
theorem unreadable_answers_range {c : Instr} {tag kind : Byte} (runs : ∀ s, exec c s =
    act (takeRequest c tag kind fun t => (t, some Answer.range)) s) {rest : List RequestFrame} {s : State}
    (h : Takes c rest s) : exec c s = .next (replied rest tag kind ⟨.range, false, .plain⟩ s) :=
  (runs s).trans (act_eq h.1 (takeRequest_of_takes h ..))

section Queue

variable {i : Instr} {tag kind : Byte} {owner : Owner} {s : State}

theorem takeRequest_empty (empty : s.mgmt.requests = []) : takeRequest i tag kind owner s =
    if placesInUse (hearFrame s) < 16 then answer tag kind owner (countRequest false (hearFrame s))
    else countRequest true (hearFrame s) := by
  unfold takeRequest
  rw [empty]

theorem takeRequest_other {q : RequestFrame} {rest : List RequestFrame} (waiting : s.mgmt.requests = q :: rest)
    (other : decodeRequest q ≠ i) : takeRequest i tag kind owner s = s := by
  unfold takeRequest
  rw [waiting]
  exact if_neg other

end Queue

/-- Settles O3: a queue that is empty by the arrival of the request, one that is not by the request that stands ahead. -/
theorem requestCommandsTakeTheOldestRequest : Obligations.RequestCommandsTakeTheOldestRequest := by
  refine ⟨fun r s within => ?_, fun tag rest s c kind m h => unreadable_answers_range ?_ h⟩
  · obtain ⟨owner, runs⟩ := exec_decodeRequest r
    rw [runs, act_inPeriod _ within]
    refine ⟨fun empty => ?_, fun q rest waiting other => congrArg _ (takeRequest_other waiting other)⟩
    have takes := takeRequest_empty (i := decodeRequest r) (tag := r.tag) (kind := r.kind) (owner := owner) empty
    by_cases free : placesInUse (hearFrame s) < 16
    · have arrived : arriveRequest r s = (countRequest false (hearFrame s)).onMgmt fun m =>
          { m with requests := m.requests ++ [r] } := if_pos free
      have unqueued : (countRequest false (hearFrame s)).mgmt.requests = [] := (hearFrame_requests s).trans empty
      have touched := arriveRequest_touches r s
      have next : Takes (decodeRequest r) [] (arriveRequest r s) :=
        ⟨⟨touched.powered.trans within.1, (congrArg _ (touched.boundary (by decide))).trans within.2⟩,
          r, by rw [arrived, State.onMgmt_mgmt, unqueued, List.nil_append], rfl⟩
      rw [if_pos free, runs, act_eq next.1 (takeRequest_of_takes next ..), takes, if_pos free, arrived]
      refine congrArg (fun t => Host.Outcome.next (answer r.tag r.kind owner t)) ?_
      unfold taken State.onMgmt
      rw [← unqueued]
    · rw [if_neg free, takes, if_neg free]
      exact (act_eq (f := arriveRequest r) within (if_neg free)).symm
  · have same {l : List (Instr × Byte)} := List.map_inj_left (l := l) (f := fun p => exec p.1)
      (g := fun p => act (takeRequest p.1 tag p.2 fun t => (t, some Answer.range)))
    exact congrFun (same.mp rfl (c, kind) m)

end Sys2Proof.Machine

/-! UNKNOWN, COUNTERS_READ, DEVICE_INFO and DEVICE_RESET (R170, R179 to R182, R190). -/

namespace Sys2Proof.Machine

open Sys2Proof.Safety

/-- The destinations that a group's clip counters belong to are there (R179). -/
def Group.Fits : Group → Prop
  | .link _ => True
  | .surface _ => True
  | .clip first count => first + count ≤ 528
  | .clock => True
  | .uplink => True
  | .rule => True
  | .management => True

theorem clips_run (v : Vector Nat 528) {first count : Nat} (fits : first + count ≤ 528) :
    (List.range count).map (fun k => v[first + k]?.getD 0) = (v.toList.drop first).take count := by
  refine List.ext_getElem ?_ fun k hk _ => ?_
  · rw [List.length_map, List.length_range, List.length_take, List.length_drop, Vector.length_toList,
      Nat.min_eq_left (Nat.le_sub_of_add_le' fits)]
  · rw [List.length_map, List.length_range] at hk
    rw [List.getElem_map, List.getElem_range, List.getElem_take, List.getElem_drop,
      Vector.getElem?_eq_getElem ((Nat.add_lt_add_left hk first).trans_le fits)]
    rfl

/-- The counters of a converter link and of a surface link, in the order of R179. -/
def linkCounts (l : Link) : List Nat :=
  [l.counters.good, l.counters.bad, l.counters.missing, l.counters.extra, l.counters.concealed, l.counters.silenced,
    l.counters.faults, l.counters.timeouts]

def surfaceCounts (f : Surface) : List Nat :=
  [f.counters.received, f.counters.malformed, f.counters.clamped, f.counters.discarded, f.counters.hellos,
    f.counters.unmatched, f.counters.sent, f.counters.overflow, f.counters.losses]

/-- A group that is cleared reads 0 (R179). -/
theorem groupValues_clearGroup (g : Group) (s : State) : ∀ n ∈ groupValues (clearGroup s g) g, n = 0 := by
  have zeros {l : List Nat} (k : Nat) (e : l = List.replicate k 0) : ∀ n ∈ l, n = 0 :=
    fun n m => List.eq_of_mem_replicate (e ▸ m)
  cases g with
  | clip first count =>
    intro n m
    obtain ⟨k, hk, rfl⟩ := List.mem_map.mp m
    by_cases below : first + k < 528
    · refine (congrArg (Option.getD · 0) (Vector.getElem?_eq_getElem below)).trans ?_
      exact (tabulate_getElem _ _ _ below).trans
        (if_pos ⟨Nat.le_add_right .., Nat.add_lt_add_left (List.mem_range.mp hk) _⟩)
    · exact congrArg (Option.getD · 0) (Vector.getElem?_eq_none (Nat.not_lt.mp below))
  | link i => exact zeros 8 (congrArg linkCounts (modifyEntry_same ..))
  | surface i => exact zeros 9 (congrArg surfaceCounts (modifyEntry_same ..))
  | clock => exact zeros 5 rfl
  | uplink | management => exact zeros 10 rfl
  | rule => exact zeros 4 rfl

/-- Every other counter stays as it was (R179). -/
theorem groupValues_clearGroup_other {g g' : Group} (other : g' ≠ g) (counts : ∀ first count, g' ≠ .clip first count)
    (s : State) : groupValues (clearGroup s g) g' = groupValues s g' := by
  cases g with
  | link i => cases g' with
    | link j => exact congrArg linkCounts (modifyEntry_other _ i j _ fun e => other (e ▸ rfl))
    | _ => rfl
  | surface i => cases g' with
    | surface j => exact congrArg surfaceCounts (modifyEntry_other _ i j _ fun e => other (e ▸ rfl))
    | _ => rfl
  | clip =>
    have kept (f : Engine → Vector Nat 528) : groupValues (s.onEngine fun e => { e with clips := f e }) g' = groupValues s g' := by
      cases g' with
      | clip first count => exact absurd rfl (counts first count)
      | _ => rfl
    exact kept _
  | clock => obtain _ | _ | _ | _ | _ | _ | _ := g' <;> first | rfl | exact absurd rfl other
  | uplink => obtain _ | _ | _ | _ | _ | _ | _ := g' <;> first | rfl | exact absurd rfl other
  | rule => obtain _ | _ | _ | _ | _ | _ | _ := g' <;> first | rfl | exact absurd rfl other
  | management => obtain _ | _ | _ | _ | _ | _ | _ := g' <;> first | rfl | exact absurd rfl other

/-- A group, an index, a count or a clear flag out of range reads none (R179). -/
theorem readCounters_refused {b : CountersReadBody} (out : 7 ≤ b.group ∨ b.group = 0 ∧ 8 ≤ b.index ∨
    b.group = 1 ∧ 4 ≤ b.index ∨ b.group = 2 ∧ (528 ≤ b.index ∨ b.count = 0 ∨ 64 < b.count ∨ 528 < b.index + b.count) ∨
    2 ≤ b.clear) : readCounters b = none := by
  have no_group (none : groupOf b.group b.index b.count = none) : readCounters b = Option.none := by
    unfold readCounters; rw [none]; rfl
  have of_kind {n : Nat} (kind : b.group = n) : groupOf b.group b.index b.count = groupOf n b.index b.count :=
    congrArg (groupOf · b.index b.count) kind
  obtain large | ⟨kind, index⟩ | ⟨kind, index⟩ | ⟨kind, range⟩ | flag := out
  · have apart {n : Nat} (small : n < 7) : b.group ≠ n := (small.trans_le large).ne'
    refine no_group ?_
    exact (if_neg (apart (by decide))).trans ((if_neg (apart (by decide))).trans ((if_neg (apart (by decide))).trans
      ((if_neg (apart (by decide))).trans ((if_neg (apart (by decide))).trans ((if_neg (apart (by decide))).trans
        (if_neg (apart (by decide))))))))
  · exact no_group ((of_kind kind).trans (congrArg (Option.map _) (linkOf_large index)))
  · exact no_group ((of_kind kind).trans (congrArg (Option.map _) (surfaceOf_large index)))
  · refine no_group ((of_kind kind).trans (if_neg fun (inside : b.index < 528 ∧ 1 ≤ b.count ∧ b.count ≤ 64 ∧ b.index + b.count ≤ 528) => ?_))
    obtain ⟨index, one, few, fits⟩ := inside
    obtain large | none | many | past := range
    · exact index.not_ge large
    · exact absurd one (by rw [none]; decide)
    · exact few.not_gt many
    · exact fits.not_gt past
  · unfold readCounters
    rw [yesNoOf_large flag]
    cases groupOf b.group b.index b.count <;> rfl

theorem countersRead_next {tag : Byte} {b : CountersReadBody} {rest : List RequestFrame} {s : State} {g : Group} {clear : Bool}
    {values : List Nat} (h : Takes (.countersRead tag (some b)) rest s) (flag : b.clear = clear.toNat)
    (names : groupOf b.group b.index b.count = some g) (reads : groupValues s g = values) : exec (.countersRead tag (some b)) s =
      .next (pushReply tag 0x76 (Answer.okData (.counters g.wide values))
        (if clear then clearGroup (taken rest s) g else taken rest s)) := by
  subst reads
  refine (act_takeRequest h ..).trans ?_
  unfold ownCountersRead readCounters
  rw [Option.bind_some, names, flag, yesNoOf_toNat]
  rfl

/-- What the clearing of a group leaves (R179). -/
def uncleared (s : State) := (s.mgmt.requests, s.mgmt.replies, s.engine.table, s.device, s.gen)

theorem clearGroup_uncleared (g : Group) (s : State) : uncleared (clearGroup s g) = uncleared s := by
  have kept (f : Engine → Vector Nat 528) : uncleared (s.onEngine fun e => { e with clips := f e }) = uncleared s := rfl
  cases g with
  | clip => exact kept _
  | _ => rfl

theorem clearGroup_clips {g : Group} (other : ∀ first count, g ≠ .clip first count) (s : State) :
    (clearGroup s g).engine.clips = s.engine.clips := by
  cases g with
  | clip => exact absurd rfl (other _ _)
  | _ => rfl

/-- Settles O47: a group cleared reads 0 and every other group what it read before. -/
theorem deviceRequests : Obligations.DeviceRequests := by
  unfold Obligations.DeviceRequests
  intro held
  refine ⟨fun tag kind rest s h => act_takeRequest h .., fun tag b rest s h => ⟨fun out => ?_, fun g clear flag names => ?_⟩,
    fun tag rest s h => ?_, fun tag rest s h => ⟨fun idle => ?_, fun busy => ?_⟩⟩
  · refine (act_takeRequest h ..).trans ?_
    unfold ownCountersRead
    rw [Option.bind_some, readCounters_refused out]
    rfl
  · have values (u : State) {g' : Group} (fits : g'.Fits) : held u g' = groupValues u g' := by
      cases g' with
      | clip => exact (clips_run u.engine.clips fits).symm
      | _ => rfl
    have names : groupOf b.group b.index b.count = some g ∧ g.Fits := by
      cases g with
      | link n => exact ⟨(congrFun (congr (congrArg groupOf names.1) names.2) _).trans (congrArg (Option.map _) (linkOf_val n)), trivial⟩
      | surface n =>
        exact ⟨(congrFun (congr (congrArg groupOf names.1) names.2) _).trans (congrArg (Option.map _) (surfaceOf_val n)), trivial⟩
      | clip first count =>
        obtain ⟨kind, index, size, fits⟩ := names
        exact ⟨(congr (congr (congrArg groupOf kind) index) size).trans (if_pos fits), fits.2.2.2⟩
      | _ => exact ⟨congrFun (congrFun (congrArg groupOf names) _) _, trivial⟩
    have rest' := clearGroup_uncleared g (taken rest s)
    refine ⟨_, countersRead_next h flag names.1 (values s names.2).symm, ?_⟩
    cases clear with
    | false => exact ⟨rfl, rfl, fun _ => rfl, fun yes => absurd yes Bool.false_ne_true⟩
    | true =>
      refine ⟨congrArg (·.1) rest', congrArg (·.2.1 ++ _) rest', fun no => absurd no.symm Bool.false_ne_true, fun _ =>
        ⟨?_, fun g' other counts => ?_, ?_, (clearGroup_clips · _), congrArg (·.2.2.1) rest',
          congrArg (·.2.2.2.1) rest', congrArg (·.2.2.2.2) rest'⟩⟩
      · rw [values _ names.2]
        exact groupValues_clearGroup g _
      · have fits : g'.Fits := by
          cases g' with
          | clip => exact absurd rfl (counts _ _)
          | _ => trivial
        exact (values _ fits).trans ((groupValues_clearGroup_other other counts (taken rest s)).trans (values s fits).symm)
      · rintro first count rfl d out
        have outside : ¬ (first ≤ d.val ∧ d.val < first + count) := fun inside => out.elim inside.1.not_gt inside.2.not_ge
        exact (tabulate_getElem _ _ _ d.2).trans
          ((if_neg outside).trans (congrArg (Option.getD · 0) (Vector.getElem?_eq_getElem d.2)))
  · refine ⟨_, act_takeRequest_reports h .., rfl, rfl, rfl, rfl, rfl, rfl, rfl, ?_, rfl, rfl, ?_, rfl, rfl⟩
    · show s.device.store.name = _
      cases s.device.store <;> rfl
    · obtain ⟨-, r, waiting, -⟩ := h
      exact taken_places waiting
  · refine (act_takeRequest h ..).trans ?_
    unfold ownDeviceReset
    rw [if_pos (show (taken rest s).device.resetState = .idle from idle)]
    rfl
  · refine (act_takeRequest h ..).trans ?_
    unfold ownDeviceReset
    rw [if_neg (show (taken rest s).device.resetState ≠ .idle from busy)]
    rfl

end Sys2Proof.Machine

/-! RESET_BOUNDARY (R107, R190). -/

namespace Sys2Proof.Machine

open Sys2Proof.Safety

/-- A candidate whose reference can supply no edges any longer (R89). -/
def Candidate.without (lost : Reference → Bool) (k : Candidate) : Candidate :=
  if lost k.ref then { k with qualification := .unqualified, window := none } else k

/-- The clock unit, these candidates disqualified. -/
def ClockUnit.disqualified (lost : Reference → Bool) (c : ClockUnit) : ClockUnit :=
  { c with candidates := c.candidates.map (Candidate.without lost) }

/-- The clock unit as it enters HOLDOVER (R98). -/
def ClockUnit.held (c : ClockUnit) : ClockUnit :=
  { c with
    lock := .holdover, lost := c.selected, selected := none, holdStart := some c.time, runPeriods := 0, runLong := 0
    counters := { c.counters with holdovers := bump32 c.counters.holdovers } }

/-- The clock unit follows one of these references. -/
def ClockUnit.followsAny (lost : Reference → Bool) (c : ClockUnit) : Bool :=
  c.selected.any fun ref => follows c ref && lost ref

/-- The clock unit once these references can no longer supply edges: a unit that follows one of them enters HOLDOVER
(R89, R98). -/
def ClockUnit.without (lost : Reference → Bool) (c : ClockUnit) : ClockUnit :=
  if c.followsAny lost then (c.disqualified lost).held else c.disqualified lost

theorem followsAny_iff {lost : Reference → Bool} {c : ClockUnit} :
    c.followsAny lost = true ↔ ∃ ref, follows c ref = true ∧ lost ref = true := by
  unfold ClockUnit.followsAny
  rw [Option.any_eq_true]
  constructor
  · rintro ⟨ref, -, both⟩
    exact ⟨ref, (Bool.and_eq_true ..).mp both⟩
  · rintro ⟨ref, followed, gone⟩
    exact ⟨ref, (of_decide_eq_true followed).2, (Bool.and_eq_true ..).mpr ⟨followed, gone⟩⟩

theorem disqualify_clock (ref : Reference) (s : State) :
    (disqualify ref s).clock = s.clock.without fun r => decide (r = ref) := by
  have gone : s.clock.onCandidate ref (fun k => { k with qualification := .unqualified, window := none }) =
      s.clock.disqualified fun r => decide (r = ref) :=
    congrArg (fun f : Candidate → Candidate => { s.clock with candidates := s.clock.candidates.map f })
      (funext fun k => if_congr decide_eq_true_iff.symm rfl rfl)
  refine (apply_ite State.clock ..).trans (if_congr ⟨fun followed => ?_, fun any => ?_⟩ (congrArg ClockUnit.held gone) gone)
  · exact followsAny_iff.mpr ⟨ref, followed, decide_eq_true rfl⟩
  · obtain ⟨r, held, same⟩ := followsAny_iff.mp any
    exact of_decide_eq_true same ▸ held

theorem ClockUnit.without_without (g h : Reference → Bool) (c : ClockUnit) :
    (c.without g).without h = c.without fun r => g r || h r := by
  have both : (c.disqualified g).disqualified h = c.disqualified fun r => g r || h r := by
    refine congrArg (fun candidates => { c with candidates := candidates }) ?_
    refine List.map_map.trans (List.map_congr_left fun k _ => ?_)
    show Candidate.without h (Candidate.without g k) = _
    unfold Candidate.without
    beta_reduce
    obtain _ | _ := g k.ref
    · rfl
    · exact ite_self _
  have either : c.followsAny (fun r => g r || h r) = (c.followsAny g || c.followsAny h) := by
    unfold ClockUnit.followsAny
    obtain _ | ref := c.selected
    · rfl
    · exact Bool.and_or_distrib_left ..
  unfold ClockUnit.without
  rw [either, ← both]
  obtain _ | _ := c.followsAny g <;> rfl

theorem ClockUnit.without_none (c : ClockUnit) : c.without (fun _ => false) = c := by
  have kept : Candidate.without (fun _ => false) = id := funext fun _ => if_neg Bool.false_ne_true
  refine (if_neg fun any => ?_).trans ?_
  · obtain ⟨_, -, false⟩ := followsAny_iff.mp any
    exact Bool.false_ne_true false
  · unfold ClockUnit.disqualified
    rw [kept, List.map_id]

/-- The links that enter OFF take their references' edges with them, one after another. -/
theorem foldl_disqualify (off : Fin 8 → Bool) (numbers : List (Fin 8)) (t : State) :
    (numbers.foldl (fun t i => if off i then disqualify (.link i) t else t) t).clock =
      t.clock.without fun ref => numbers.any fun i => off i && decide (ref = .link i) := by
  induction numbers generalizing t with
  | nil => exact (ClockUnit.without_none _).symm
  | cons i numbers ih =>
    simp only [List.foldl_cons, ih, List.any_cons]
    rw [← ClockUnit.without_without]
    congr 1
    obtain _ | _ := off i
    · exact (ClockUnit.without_none _).symm
    · exact disqualify_clock (.link i) t

theorem receives_eq (x : LinkState) : x.receives = decide (x = .align ∨ x = .active ∨ x = .paused) := by
  obtain _ | _ | _ | _ | _ := x <;> rfl

theorem any_link (off : Fin 8 → Bool) (i : Fin 8) :
    (linkNumbers.any fun j => off j && decide (Reference.link i = .link j)) = off i := by
  refine Bool.eq_iff_iff.mpr ⟨fun any => ?_, fun gone => List.any_eq_true.mpr ⟨i, mem_linkNumbers i, ?_⟩⟩
  · obtain ⟨j, -, both⟩ := List.any_eq_true.mp any
    obtain ⟨gone, same⟩ := (Bool.and_eq_true ..).mp both
    exact Reference.link.inj (of_decide_eq_true same) ▸ gone
  · exact (Bool.and_eq_true ..).mpr ⟨gone, decide_eq_true rfl⟩

/-- Settles O27: the parts of the reset by its definition, the clock unit's by `foldl_disqualify`. -/
theorem resetRestartsThePart : Obligations.ResetRestartsThePart := by
  intro s powered
  refine ⟨fun due => ⟨_, (run_powered _ powered).trans (congrArg _ (if_pos due)), ?_⟩, fun idle =>
    (run_powered _ powered).trans (congrArg _ (if_neg (Bool.eq_false_iff.mp idle)))⟩
  · refine ⟨?_, rfl, rfl, rfl, fun d => ⟨?_, ?_⟩, rfl, rfl, rfl, rfl, rfl, fun i => ?_, ?_⟩
    · obtain _ | _ | ⟨records, rate, _ | _, fallback⟩ | _ := s.device.store <;>
        exact ⟨rfl, rfl, fun i => Vector.getElem_replicate _⟩
    · exact Vector.getElem_replicate _
    · exact Vector.getElem_replicate _
    · dsimp only
      rw [Fin.getElem_fin, mapEntries_getElem]
      exact ⟨rfl, rfl, rfl, rfl, rfl, rfl, rfl⟩
    · intro autostart gone following kept
      have starts : s.device.store.cut.autostart.isSome = autostart := by
        dsimp only [autostart]
        obtain _ | _ | ⟨records, rate, _ | _, fallback⟩ | _ := s.device.store <;> rfl
      have clock : (resetClock s.device.store.cut.autostart.isSome s).clock =
          ({ s.clock with pendingRate := none, counters := ClockCounters.zero } : ClockUnit).without gone := by
        rw [starts]
        refine (foldl_disqualify _ linkNumbers _).trans (congrArg (ClockUnit.without · _) (funext fun ref => ?_))
        obtain i | _ | _ := ref
        case link => exact (any_link ..).trans ((Bool.and_comm ..).trans (congrArg _ (receives_eq _)))
        all_goals
          exact List.any_eq_false.mpr fun i _ both => Reference.noConfusion (of_decide_eq_true ((Bool.and_eq_true ..).mp both).2)
      dsimp only
      rw [clock]
      refine ⟨fun ref follow selected off => ?_, fun stays => if_neg fun any => ?_⟩
      · exact (if_pos (followsAny_iff.mpr ⟨ref, decide_eq_true ⟨follow, selected⟩, off⟩)).trans
          (congrArg (fun lost => { kept with
            lock := .holdover, lost := lost, selected := none, holdStart := some s.clock.time, runPeriods := 0
            runLong := 0, counters := { ClockCounters.zero with holdovers := 1 } }) selected)
      · obtain ⟨ref, followed, off⟩ := followsAny_iff.mp any
        obtain ⟨follow, selected⟩ := of_decide_eq_true followed
        obtain idle | on := stays
        · exact idle follow
        · exact Bool.false_ne_true ((on ref selected).symm.trans off)

end Sys2Proof.Machine

/-! The edges of a reference and the windows they complete (R86, R90 to R99). -/

namespace Sys2Proof.Machine

open Sys2Proof.Safety

section Windows

variable {ref : Reference} {t m : Nat} {k : Candidate} {w : Window} {s : State}

theorem measureEdge_unlisted (found : findCandidate s.clock ref = none) : measureEdge ref t s = s := by
  unfold measureEdge
  rw [found]

theorem measureEdge_starts (found : findCandidate s.clock ref = some k) (waiting : k.window = none) :
    measureEdge ref t s = s.onClock (ClockUnit.onCandidate ref fun k => { k with window := some ⟨0, t, t⟩ }) := by
  unfold measureEdge
  rw [found]
  dsimp only
  rw [waiting]

theorem measureEdge_counts (found : findCandidate s.clock ref = some k) (begun : k.window = some w) (few : w.edges < 63) :
    measureEdge ref t s = s.onClock (ClockUnit.onCandidate ref fun k =>
      { k with window := some ⟨w.edges + 1, w.start, t⟩, interval := some (edgePeriod s.gen.rate.mult (t - w.latest)) }) := by
  unfold measureEdge
  rw [found]
  dsimp only
  rw [begun]
  exact if_pos (Nat.succ_lt_succ few)

theorem measureEdge_completes (found : findCandidate s.clock ref = some k) (begun : k.window = some w)
    (full : 63 ≤ w.edges) : measureEdge ref t s = completeWindow ref (t - w.start) (s.onClock (ClockUnit.onCandidate ref fun k =>
      { k with window := some ⟨0, t, t⟩, interval := some (edgePeriod s.gen.rate.mult (t - w.latest)) })) := by
  unfold measureEdge
  rw [found]
  dsimp only
  rw [begun]
  exact if_neg (Nat.succ_lt_succ_iff.not.mpr full.not_gt)

/-- The clock unit as a window of `m` ticks has been judged (R91, R93). -/
def ClockUnit.windowJudged (mult : Mult) (ref : Reference) (m : Nat) (c : ClockUnit) : ClockUnit :=
  let dev := windowDeviation mult m
  let good := inTolerance c.tolerance dev
  { c.onCandidate ref (Candidate.judged mult c.tolerance m) with
    heldDeviation := if c.selected = some ref ∨ c.lost = some ref then some dev else c.heldDeviation
    holdCount := if follows c ref ∧ good then some m else c.holdCount
    counters := if good then c.counters else { c.counters with outOfTolerance := bump32 c.counters.outOfTolerance } }

theorem completeWindow_eq {good : Bool} {judged : ClockUnit}
    (tolerated : inTolerance s.clock.tolerance (windowDeviation s.gen.rate.mult m) = good)
    (judges : ClockUnit.windowJudged s.gen.rate.mult ref m s.clock = judged) : completeWindow ref m s =
      if follows s.clock ref && !good then enterHoldover { s with clock := judged } else look { s with clock := judged } := by
  subst tolerated judges
  rfl

theorem look_pulling (pulling : s.clock.lock = .pullIn) : look s = s := by
  unfold look
  rw [pulling]
  obtain _ | _ := bestCandidate s.clock <;> rfl

/-- In PULL_IN a window that does not lose the reference moves nothing else (R94, R98). -/
theorem completeWindow_pulling (pulling : s.clock.lock = .pullIn)
    (kept : ¬ (follows s.clock ref && !inTolerance s.clock.tolerance (windowDeviation s.gen.rate.mult m)) = true) :
    completeWindow ref m s = s.onClock (ClockUnit.windowJudged s.gen.rate.mult ref m) :=
  (if_neg kept).trans (look_pulling pulling)

theorem countPullIn_completeWindow (pulling : s.clock.lock = .pullIn) (goesOn : (completeWindow ref m s).clock.lock = .pullIn) :
    countPullIn (completeWindow ref m s) = completeWindow ref m (countPullIn s) := by
  by_cases lost : (follows s.clock ref && !inTolerance s.clock.tolerance (windowDeviation s.gen.rate.mult m)) = true
  · rw [completeWindow_eq rfl rfl, if_pos lost] at goesOn
    exact absurd goesOn LockState.noConfusion
  · rw [completeWindow_pulling pulling lost, completeWindow_pulling (s := countPullIn s) pulling lost]
    rfl

/-- An edge that leaves the pull-in going is counted before its measurement as well as after it (R96). -/
theorem countPullIn_measureEdge (pulling : s.clock.lock = .pullIn) (goesOn : (measureEdge ref t s).clock.lock = .pullIn) :
    countPullIn (measureEdge ref t s) = measureEdge ref t (countPullIn s) := by
  rcases found : findCandidate s.clock ref with _ | k
  · exact (congrArg countPullIn (measureEdge_unlisted found)).trans (measureEdge_unlisted (s := countPullIn s) found).symm
  rcases window : k.window with _ | w
  · exact (congrArg countPullIn (measureEdge_starts found window)).trans
      (measureEdge_starts (s := countPullIn s) found window).symm
  obtain few | full := Nat.lt_or_ge w.edges 63
  · exact (congrArg countPullIn (measureEdge_counts found window few)).trans
      (measureEdge_counts (s := countPullIn s) found window few).symm
  · rw [measureEdge_completes found window full] at goesOn ⊢
    rw [measureEdge_completes (s := countPullIn s) found window full]
    exact countPullIn_completeWindow pulling goesOn

/-- Four nominal periods have passed since the latest edge of a window in progress (R92). -/
theorem lossTick_any (p : Nat → Bool) : (lossTick ref s).any p = true ↔ ∃ k w, findCandidate s.clock ref = some k ∧
    k.window = some w ∧ p (w.latest + 4 * nominalTicks s.gen.rate.mult) = true := by
  unfold lossTick
  rw [Option.any_eq_true]
  constructor
  · rintro ⟨_, lost, late⟩
    obtain ⟨w, open', rfl⟩ := Option.map_eq_some_iff.mp lost
    obtain ⟨k, found, begun⟩ := Option.bind_eq_some_iff.mp open'
    exact ⟨k, w, found, begun, late⟩
  · rintro ⟨k, w, found, begun, late⟩
    exact ⟨_, Option.map_eq_some_iff.mpr ⟨w, Option.bind_eq_some_iff.mpr ⟨k, found, begun⟩, rfl⟩, late⟩

/-- A reference that is lost is not pulled in (R98). -/
theorem not_pulling_loseReference (ref : Reference) (s : State) :
    ¬ ((loseReference ref s).clock.lock = .pullIn ∧ (loseReference ref s).clock.selected = some ref) := by
  unfold loseReference disqualify
  refine iteInduction (motive := fun u : State => ¬ (u.clock.lock = .pullIn ∧ u.clock.selected = some ref))
    (fun _ both => LockState.noConfusion both.1) fun free both => ?_
  exact free (decide_eq_true ⟨.inl both.1, both.2⟩)

/-- An edge that counts toward no pull-in. -/
theorem referenceEdge_idle {u : State} {phase : Nat} {countFirst : Bool} (before : loseBefore ref (s.clock.ticks + phase) s = u)
    (idle : ¬ (u.clock.lock = .pullIn ∧ u.clock.selected = some ref)) :
    referenceEdge ref phase countFirst s = measureEdge ref (s.clock.ticks + phase) u := by
  unfold referenceEdge
  dsimp only
  rw [before]
  rw [decide_eq_false idle]
  rfl

/-- An edge that counts toward the pull-in before its window or after it (R96). -/
theorem referenceEdge_pulling {phase : Nat} {countFirst : Bool} (before : loseBefore ref (s.clock.ticks + phase) s = s)
    (pulling : s.clock.lock = .pullIn ∧ s.clock.selected = some ref) :
    referenceEdge ref phase countFirst s =
      if countFirst then measureEdge ref (s.clock.ticks + phase) (finishPullIn (countPullIn s))
      else if (measureEdge ref (s.clock.ticks + phase) s).clock.lock = .pullIn
        then countPullIn (measureEdge ref (s.clock.ticks + phase) s) else measureEdge ref (s.clock.ticks + phase) s := by
  unfold referenceEdge
  dsimp only
  rw [before]
  rw [decide_eq_true pulling, Bool.true_and]
  cases countFirst with
  | true => rfl
  | false =>
    refine (if_neg Bool.false_ne_true).trans (Eq.trans ?_ (if_neg Bool.false_ne_true).symm)
    rw [Bool.true_and]
    exact if_congr decide_eq_true_iff rfl rfl

end Windows

/-- Settles O53: the edge loss before the edge, then the count and the measurement in the order of the command. -/
theorem edgesMeasureTheirReference : Obligations.EdgesMeasureTheirReference := by
  constructor
  · intro ref phase countFirst s within t spaced late pulling counted
    have apart : spaced = 4 * nominalTicks s.gen.rate.mult := by
      dsimp only [spaced]
      cases s.gen.rate.mult <;> rfl
    have late_iff : late ↔ ((lossTick ref s).any fun u => decide (u < t)) = true := by
      dsimp only [late]
      rw [lossTick_any, apart]
      simp only [decide_eq_true_eq]
    have lost (h : late) : loseBefore ref t s = loseReference ref s := if_pos (late_iff.mp h)
    have kept (h : ¬ late) : loseBefore ref t s = s := if_neg (late_iff.not.mp h)
    refine ⟨act_inPeriod _ within, fun h => referenceEdge_idle (lost h) (not_pulling_loseReference ref s), fun h inside =>
      act_eq within (if_pos ?_), fun h idle => referenceEdge_idle (kept h) idle, fun u h pulls first runs => ?_,
      fun h pulls after goesOn => ?_, fun h pulls after stops => ?_⟩
    · obtain ⟨k, w, found, begun, passed⟩ := h
      refine (lossTick_any _).mpr ⟨k, w, found, begun, decide_eq_true ?_⟩
      rw [← apart]
      exact passed.le.trans (Nat.add_le_add_left inside _)
    · refine (referenceEdge_pulling (kept h) pulls).trans ((if_pos first).trans (congrArg _ ?_))
      exact Host.Outcome.next.inj ((act_inPeriod finishPullIn (s := countPullIn s) within).symm.trans runs)
    · refine (referenceEdge_pulling (kept h) pulls).trans ((if_neg (ne_true_of_eq_false after)).trans ((if_pos goesOn).trans ?_))
      exact countPullIn_measureEdge pulls.1 goesOn
    · exact (referenceEdge_pulling (kept h) pulls).trans ((if_neg (ne_true_of_eq_false after)).trans (if_neg stops))
  · intro ref t s becomes
    refine ⟨measureEdge_unlisted, fun k found => ⟨measureEdge_starts found, ?_⟩⟩
    intro w begun few nominal d
    refine (measureEdge_counts found begun few).trans ?_
    dsimp only [becomes, nominal]
    unfold edgePeriod
    cases s.gen.rate.mult <;> rfl

/-- What stands before another in a list with no repeated entry before it. -/
theorem mem_takeWhile_ne {a b : Reference} {l : List Reference} (m : a ∈ l) :
    a ∈ l.takeWhile (fun r => decide (r ≠ b)) ↔ b ∉ l ∨ l.idxOf a < l.idxOf b := by
  induction l with
  | nil => exact absurd m List.not_mem_nil
  | cons x xs ih =>
    by_cases stop : x = b
    · subst stop
      rw [List.takeWhile_cons_of_neg (by simp), List.idxOf_cons_self]
      exact iff_of_false List.not_mem_nil (not_or.mpr ⟨not_not.mpr (.head _), Nat.not_lt_zero _⟩)
    · rw [List.takeWhile_cons_of_pos (by simpa using stop), List.idxOf_cons_ne _ stop, List.mem_cons]
      by_cases first : a = x
      · subst first
        rw [List.idxOf_cons_self]
        exact iff_of_true (.inl rfl) (.inr (Nat.zero_lt_succ _))
      · have rest := (List.mem_cons.mp m).resolve_left first
        rw [List.idxOf_cons_ne _ (Ne.symm first), or_iff_right first, ih rest, Nat.succ_lt_succ_iff, List.mem_cons,
          or_iff_right (Ne.symm stop)]

section Completion

variable {ref : Reference} {m : Nat} {s : State}

/-- A window judged after its edge has been noted of its candidate. -/
theorem windowJudged_onCandidate (mult : Mult) {f : Candidate → Candidate} (keeps : ∀ k, (f k).ref = k.ref) (c : ClockUnit) :
    ClockUnit.windowJudged mult ref m (c.onCandidate ref f) =
      { c with
        candidates := c.candidates.map fun k => if k.ref = ref then Candidate.judged mult c.tolerance m (f k) else k
        heldDeviation := if c.selected = some ref ∨ c.lost = some ref then some (windowDeviation mult m) else c.heldDeviation
        holdCount := if follows c ref ∧ inTolerance c.tolerance (windowDeviation mult m) then some m else c.holdCount
        counters := if inTolerance c.tolerance (windowDeviation mult m) then c.counters
          else { c.counters with outOfTolerance := bump32 c.counters.outOfTolerance } } := by
  refine congrArg (fun l => { ClockUnit.windowJudged mult ref m (c.onCandidate ref f) with candidates := l })
    (List.map_map.trans (List.map_congr_left fun k _ => ?_))
  have judge {x y : Candidate} := congrArg (a₁ := x) (a₂ := y) fun k =>
    if k.ref = ref then Candidate.judged mult c.tolerance m k else k
  by_cases here : k.ref = ref
  · exact (judge (if_pos here)).trans ((if_pos ((keeps k).trans here)).trans (if_pos here).symm)
  · exact (judge (if_neg here)).trans ((if_neg here).trans (if_neg here).symm)

theorem qualify_eq (good : Bool) (q : Qualification) :
    qualify good q = if good then (if q = .unqualified then .qualifying else .qualified) else .unqualified := by
  cases good <;> cases q <;> rfl

/-- `s` with this clock unit, these alarms posted. -/
def posted (c : ClockUnit) (alarms : List Alarm) (s : State) : State :=
  { s with clock := c, mgmt := afterAlarms alarms s.mgmt }

theorem postClockAlarm_posted {c : ClockUnit} {lock : LockState} {named : Option Reference} {deviation : Option Int}
    (at' : c.lock = lock) (names : namedReference c = named)
    (held : (if c.lock = .free then none else c.heldDeviation) = deviation) (alarms : List Alarm) (s : State) :
    postClockAlarm (posted c alarms s) =
      posted c (alarms ++ [.clockState lock named s.gen.rate deviation (stampNow s)]) s := by
  subst at' names held
  exact (postAlarm_spec ..).trans (congrArg (fun m => { s with clock := c, mgmt := m }) (afterAlarms_append ..).symm)

theorem enterPullIn_posted (k : Candidate) {c : ClockUnit} {n p : Nat} (counted : c.counters.selections = n)
    (length : c.periodTicks = p) (alarms : List Alarm) (s : State) : enterPullIn k (posted c alarms s) = posted { c with
      lock := .pullIn, selected := some k.ref, lost := none, heldDeviation := k.deviation, holdCount := k.goodCount
      holdStart := none, pullInCount := 0, entryLength := p, counters := { c.counters with selections := bump32 n } }
      (alarms ++ [.clockState .pullIn (some k.ref) s.gen.rate k.deviation (stampNow s)]) s := by
  subst counted length
  exact postClockAlarm_posted rfl rfl rfl alarms s

theorem enterHoldover_posted {c : ClockUnit} {selected : Option Reference} {deviation : Option Int} {n t : Nat}
    (same : c.selected = selected) (held : c.heldDeviation = deviation) (counted : c.counters.holdovers = n)
    (time : c.time = t) (alarms : List Alarm) (s : State) : enterHoldover (posted c alarms s) = posted { c with
      lock := .holdover, lost := selected, selected := none, holdStart := some t, runPeriods := 0
      runLong := 0, counters := { c.counters with holdovers := bump32 n } }
      (alarms ++ [.clockState .holdover selected s.gen.rate deviation (stampNow s)]) s := by
  subst same held counted time
  exact postClockAlarm_posted rfl rfl rfl alarms s

/-- A look that takes the best candidate (R94, R95, R97, R99). -/
theorem look_takes {k : Candidate} (best : bestCandidate s.clock = some k)
    (may : s.clock.lock = .free ∨ s.clock.lock = .holdover ∨
      s.clock.lock = .locked ∧ (s.clock.revert && ranksBefore s.clock k) = true) : look s = enterPullIn k s := by
  unfold look
  rw [best]
  obtain lock | lock | ⟨lock, ahead⟩ := may <;> dsimp only <;> rw [lock]
  exact if_pos ahead

/-- A look that takes none. -/
theorem look_stays (none : bestCandidate s.clock = none ∨ s.clock.lock = .pullIn ∨ s.clock.lock = .locked ∧
    ∀ k, bestCandidate s.clock = some k → (s.clock.revert && ranksBefore s.clock k) = false) : look s = s := by
  unfold look
  cases best : bestCandidate s.clock with
  | none => rfl
  | some k =>
    obtain none | lock | ⟨lock, behind⟩ := none
    · exact absurd (best.symm.trans none) (Option.some_ne_none k)
    · dsimp only
      rw [lock]
    · dsimp only
      rw [lock]
      exact if_neg (ne_true_of_eq_false (behind k best))

theorem ranksBefore_iff (c : ClockUnit) (k : Candidate) : ranksBefore c k = true ↔ ∀ sel, c.selected = some sel →
    (c.candidates.map (·.ref)).idxOf k.ref < (c.candidates.map (·.ref)).idxOf sel := by
  unfold ranksBefore
  cases c.selected with
  | none => exact iff_of_true rfl fun _ same => absurd same.symm (Option.some_ne_none _)
  | some sel =>
    exact decide_eq_true_iff.trans ⟨fun ahead r same => Option.some.inj same ▸ ahead, fun ahead => ahead sel rfl⟩

end Completion

/-- Settles O54: the best candidate by `mem_takeWhile_ne`; a completed window is judged, and then the unit loses its
reference or looks. -/
theorem windowsMoveTheLock : Obligations.WindowsMoveTheLock := by
  constructor
  · intro c best refs may
    classical
    have same : bestCandidate c = c.candidates.find? fun k => decide (may k) := List.find?_congr fun k m =>
      decide_eq_decide.mpr (and_congr_left' (mem_takeWhile_ne (List.mem_map_of_mem m)))
    rw [same, List.find?_eq_some_iff_append]
    simp only [decide_eq_true_eq, Bool.not_eq_true', decide_eq_false_iff_not]
    constructor
    · rintro ⟨is, before, after, split, others⟩
      exact ⟨before, after, split, is, others⟩
    · rintro ⟨before, after, split, is, others⟩
      exact ⟨is, before, after, split, others⟩
  · intro ref t k w s found begun full nominal deviation good followed d judged becomes taken ahead stays
    have follow : follows s.clock ref = true ↔ followed := decide_eq_true_iff
    have ticks : nominalTicks s.gen.rate.mult = nominal := by
      dsimp only [nominal]
      cases s.gen.rate.mult <;> rfl
    have deviates : windowDeviation s.gen.rate.mult (t - w.start) = deviation := by
      unfold windowDeviation nominalWindow
      rw [ticks]
    have period : edgePeriod s.gen.rate.mult (t - w.latest) = d / max 1 ((2 * d + nominal) / (2 * nominal)) := by
      unfold edgePeriod
      rw [ticks]
    have tolerated : inTolerance s.clock.tolerance deviation = good := rfl
    have judges : ClockUnit.windowJudged s.gen.rate.mult ref (t - w.start) (s.clock.onCandidate ref fun k =>
        { k with window := some ⟨0, t, t⟩, interval := some (edgePeriod s.gen.rate.mult (t - w.latest)) }) = judged := by
      refine (windowJudged_onCandidate _ ?_ _).trans ?_
      · exact fun _ => rfl
      · simp only [Candidate.judged, deviates, period, tolerated, qualify_eq, follow]
        rfl
    have completes : measureEdge ref t s = if follows s.clock ref && !good then enterHoldover { s with clock := judged }
        else look { s with clock := judged } := by
      exact (measureEdge_completes found begun full).trans (completeWindow_eq (congrArg _ deviates) judges)
    have kept (h : ¬ followed ∨ good = true) : ¬ (follows s.clock ref && !good) = true := fun both => by
      obtain ⟨follows, out⟩ := (Bool.and_eq_true ..).mp both
      exact h.elim (· (follow.mp follows)) ((Bool.not_eq_true' _).mp out ▸ Bool.false_ne_true)
    have free (h : s.clock.lock = .free ∨ s.clock.lock = .holdover) : ¬ followed := by
      rintro ⟨lock, -⟩
      obtain e | e := h <;> obtain e' | e' := lock <;> exact LockState.noConfusion (e.symm.trans e')
    have refs : judged.candidates.map (·.ref) = s.clock.candidates.map (·.ref) := by
      refine List.map_map.trans (List.map_congr_left fun k _ => ?_)
      exact iteInduction (motive := fun x : Candidate => x.ref = k.ref) (fun _ => rfl) fun _ => rfl
    have ranks (best : Candidate) : ranksBefore judged best = true ↔ ahead best := by
      rw [ranksBefore_iff, refs]
    have takes (best : Candidate) := enterPullIn_posted best (c := judged) (n := s.clock.counters.selections)
      (iteInduction (motive := fun x : ClockCounters => x.selections = _) (fun _ => rfl) fun _ => rfl) rfl [] s
    refine ⟨fun follows out => ?_, fun lock h => ?_, fun best lock h found revert h' => ?_, fun lock h behind => ?_,
      fun best lock found => ?_, fun lock none => ?_⟩
    · exact completes.trans ((if_pos ((Bool.and_eq_true ..).mpr ⟨follow.mpr follows, (Bool.not_eq_true' _).mpr out⟩)).trans
        (enterHoldover_posted (c := judged) (n := s.clock.counters.holdovers) follows.2 (if_pos (.inl follows.2))
          (iteInduction (motive := fun x : ClockCounters => x.holdovers = _) (fun _ => rfl) fun _ => rfl) rfl [] s))
    · exact completes.trans ((if_neg (kept h)).trans (look_stays (.inr (.inl lock))))
    · refine completes.trans ((if_neg (kept h)).trans ((look_takes (s := { s with clock := judged }) found ?_).trans
        (takes best)))
      exact .inr (.inr ⟨lock, (Bool.and_eq_true ..).mpr ⟨revert, (ranks best).mpr h'⟩⟩)
    · refine completes.trans ((if_neg (kept h)).trans (look_stays (.inr (.inr ⟨lock, fun best found => ?_⟩))))
      refine Bool.eq_false_iff.mpr fun both => ?_
      obtain ⟨revert, before⟩ := (Bool.and_eq_true ..).mp both
      exact behind.elim (fun unset => Bool.false_ne_true (unset.symm.trans revert)) fun none => none best found ((ranks best).mp before)
    · exact completes.trans ((if_neg (kept (.inl (free lock)))).trans
        ((look_takes (s := { s with clock := judged }) found (lock.imp_right .inl)).trans (takes best)))
    · exact completes.trans ((if_neg (kept (.inl (free lock)))).trans (look_stays (.inl none)))

end Sys2Proof.Machine

/-! The replacing of the candidate list (R88, R94, R95, R97 to R100). -/

namespace Sys2Proof.Machine

open Sys2Proof.Safety

section Reading

variable {b : ClockCandidatesBody} {refs : List Reference}

/-- The number of a reference in the fields (R193). -/
def refNumber : Reference → Nat
  | .link n => n.val
  | .wordclock => 8
  | .internal => 9

theorem referenceOf_number (r : Reference) : referenceOf (refNumber r) = some r := by
  obtain _ | n | _ := r
  case link => exact dif_pos n.2
  all_goals rfl

theorem readCandidates_inside {revert : Bool} (list : readEach referenceOf b.list = some refs)
    (size : 1 ≤ refs.length ∧ refs.length ≤ 4 ∧ refs.Nodup) (low : 50 ≤ b.tolerance) (high : b.tolerance ≤ 2000)
    (short : 1000 ≤ b.limit) (long : b.limit ≤ 60000) (flag : b.revert = revert.toNat) :
    readCandidates b = some (refs, b.tolerance, b.limit, revert) := by
  unfold readCandidates
  rw [list, within_inside low high, within_inside short long, flag, yesNoOf_toNat]
  exact if_pos size

/-- A list or an option out of range is not read (R100). -/
theorem readCandidates_refused (out : b.list = [] ∨ 4 < b.list.length ∨ ¬ b.list.Nodup ∨ (∃ n ∈ b.list, 10 ≤ n) ∨
    b.tolerance < 50 ∨ 2000 < b.tolerance ∨ b.limit < 1000 ∨ 60000 < b.limit ∨ 2 ≤ b.revert) : readCandidates b = none := by
  refine Option.eq_none_iff_forall_ne_some.mpr fun fields read => ?_
  refine bind_reads (P := fun _ => False) (fun refs list => bind_reads fun tolerance tolerated =>
    bind_reads fun limit limited => bind_reads fun revert flag fields read => ?_) fields read
  obtain ⟨one, few, nodup⟩ : 1 ≤ refs.length ∧ refs.length ≤ 4 ∧ refs.Nodup :=
    of_not_not fun no => Option.some_ne_none _ (read.symm.trans (if_neg no))
  have entries := readEach_eq_some.mp list
  have length : b.list.length = refs.length :=
    (List.length_map _).symm.trans ((congrArg List.length entries).trans (List.length_map _))
  have conflict {α : Type} {x : α} {o : Option α} (is : o = some x) (no : o = none) : False :=
    Option.some_ne_none x (is.symm.trans no)
  obtain empty | many | twice | ⟨n, member, large⟩ | low | high | short | long | large := out
  · exact (one.trans_eq (length.symm.trans (congrArg List.length empty))).not_gt Nat.zero_lt_one
  · exact (few.trans_lt many).ne length.symm
  · exact twice (.of_map _ (entries ▸ nodup.map (Option.some_injective _)))
  · exact conflict list (readEach_none member (referenceOf_large large))
  · exact conflict tolerated (within_outside (.inl low))
  · exact conflict tolerated (within_outside (.inr high))
  · exact conflict limited (within_outside (.inl short))
  · exact conflict limited (within_outside (.inr long))
  · exact conflict flag (yesNoOf_large large)

end Reading

theorem replaceList_refs (refs : List Reference) (c : ClockUnit) : (replaceList refs c).map (·.ref) = refs := by
  refine List.map_map.trans ((List.map_congr_left fun r _ => ?_).trans (List.map_id _))
  show ((findCandidate c r).getD (Candidate.joined r)).ref = r
  rcases found : findCandidate c r with _ | k
  · rfl
  · exact of_decide_eq_true (List.find?_some (p := fun k : Candidate => decide (k.ref = r)) found)

/-- The entry to HOLDOVER of a part with this clock unit. -/
def ClockUnit.dropped (c : ClockUnit) : ClockUnit := { c with
  lock := .holdover, lost := c.selected, selected := none, holdStart := some c.time, runPeriods := 0
  runLong := 0, counters := { c.counters with holdovers := bump32 c.counters.holdovers } }

/-- The fall to FREE of a part with this clock unit. -/
def ClockUnit.fallen (c : ClockUnit) : ClockUnit := { c with
  lock := .free, selected := none, lost := none, heldDeviation := none, holdCount := none, holdStart := none
  counters := { c.counters with expiries := bump32 c.counters.expiries } }

section Steps

variable {c : ClockUnit} {s : State}

theorem applyLimit_expires {start now : Nat} (stamp : stampNow s = now) (lock : c.lock = .holdover) (held : c.holdStart = some start)
    (past : start + c.limit * timePerMs ≤ c.time) : applyLimit (posted c [] s) =
      posted c.fallen [.clockState .free none s.gen.rate none now] s := by
  subst stamp
  unfold applyLimit
  rw [show (posted c [] s).clock.lock = .holdover from lock, show (posted c [] s).clock.holdStart = some start from held]
  exact (if_pos past).trans (postClockAlarm_posted (c := c.fallen) rfl rfl rfl [] s)

theorem applyLimit_stays (idle : ¬ (c.lock = .holdover ∧ ∃ start, c.holdStart = some start ∧
    start + c.limit * timePerMs ≤ c.time)) : applyLimit (posted c [] s) = posted c [] s := by
  unfold applyLimit
  show (match c.lock, c.holdStart with
    | .holdover, some t => if t + limitTime c.limit ≤ c.time then _ else _
    | _, _ => _) = _
  rcases lock : c.lock with _ | _ | _ | _
  case holdover =>
    rcases held : c.holdStart with _ | start
    · rfl
    · exact if_neg fun past => idle ⟨lock, start, held, past⟩
  all_goals rfl

theorem dropIneligible_drops {ref : Reference} {now : Nat} (stamp : stampNow s = now) (selected : c.selected = some ref) (follows : follows c ref = true)
    (ranked : ref ∉ eligibleRefs c) : dropIneligible (posted c [] s) =
      posted c.dropped [.clockState .holdover c.selected s.gen.rate c.heldDeviation now] s := by
  subst stamp
  unfold dropIneligible
  rw [show (posted c [] s).clock.selected = some ref from selected]
  exact (if_pos ⟨follows, ranked⟩).trans (postClockAlarm_posted (c := c.dropped) rfl rfl rfl [] s)

theorem dropIneligible_stays {alarms : List Alarm} (kept : ∀ ref, c.selected = some ref → follows c ref = true →
    ref ∈ eligibleRefs c) : dropIneligible (posted c alarms s) = posted c alarms s := by
  unfold dropIneligible
  rcases selected : (posted c alarms s).clock.selected with _ | ref
  · rfl
  · exact if_neg fun both => both.2 (kept ref selected both.1)

end Steps

/-- Settles O40: the fields are read, the list replaced, and the unit acts on its limit, its reference and the list. -/
theorem candidatesReplaceTheList : Obligations.CandidatesReplaceTheList := by
  refine ⟨?_, fun tag b rest s h out => ?_⟩
  · intro tag b refs revert rest s h numbers nodup one few low high short long flag listed expired dropped ahead entry fallen
      held leaves takes looks
    have inPeriod : (taken rest s).boundary.taken = false := h.1.2
    have list : readEach referenceOf b.list = some refs := readEach_eq_some.mpr (numbers ▸ List.map_map.trans
      (List.map_congr_left fun r _ => referenceOf_number r))
    have runs {c : ClockUnit} {alarms : List Alarm}
        (acts : look (dropIneligible (applyLimit (posted listed [] (taken rest s)))) = posted c alarms (taken rest s)) :
        leaves c alarms := by
      refine (act_takeRequest h ..).trans (congrArg _ ?_)
      unfold ownClockCandidates
      rw [Option.bind_some, readCandidates_inside list ⟨one, few, nodup⟩ low high short long flag]
      refine (congrArg (fun t : State => pushReply tag 0x50 (Answer.okData (.lockState t.clock.lock t.clock.selected)) t) acts).trans ?_
      exact pushReply_alarmed (s := posted c alarms (taken rest s)) rfl
    have eligible : eligibleRefs listed = refs.takeWhile fun r => decide (r ≠ .internal) :=
      congrArg (List.takeWhile _) (replaceList_refs refs s.clock)
    have ranks (k : Candidate) : ranksBefore listed k = true ↔ ahead k := by
      rw [ranksBefore_iff, show listed.candidates.map (·.ref) = refs from replaceList_refs refs s.clock]
    have stamp : stampNow (taken rest s) = s.gen.sampleCounter := stampNow_inPeriod inPeriod
    have enters {c : ClockUnit} {alarms : List Alarm} {k : Candidate} (counted : c.counters.selections = s.clock.counters.selections)
        (length : c.periodTicks = s.clock.periodTicks)
        (reached : look (dropIneligible (applyLimit (posted listed [] (taken rest s)))) =
          enterPullIn k (posted c alarms (taken rest s))) : takes k c alarms := by
      refine runs (reached.trans ((enterPullIn_posted k counted length alarms _).trans ?_))
      rw [stamp]
      rfl
    have looked {c : ClockUnit} {alarms : List Alarm} (lock : c.lock = .free ∨ c.lock = .holdover)
        (counted : c.counters.selections = s.clock.counters.selections) (length : c.periodTicks = s.clock.periodTicks)
        (same : bestCandidate c = bestCandidate listed)
        (reached : dropIneligible (applyLimit (posted listed [] (taken rest s))) = posted c alarms (taken rest s)) :
        looks c alarms := by
      have look' := congrArg look reached
      refine ⟨fun k best => enters (c := c) (alarms := alarms) counted length (look'.trans ?_), fun none => runs (look'.trans ?_)⟩
      · exact look_takes (s := posted c alarms _) (same.trans best) (lock.imp_right .inl)
      · exact look_stays (s := posted c alarms _) (.inl (same.trans none))
    have waits (idle : ¬ (s.clock.lock = .holdover ∧ expired)) (kept : s.clock.lock = .pullIn ∨ s.clock.lock = .locked → ¬ dropped) :
        dropIneligible (applyLimit (posted listed [] (taken rest s))) = posted listed [] (taken rest s) := by
      refine (congrArg dropIneligible (applyLimit_stays (c := listed) idle)).trans (dropIneligible_stays fun ref selected follows => ?_)
      obtain ⟨lock, -⟩ := of_decide_eq_true follows
      exact of_not_not fun no => kept lock ⟨ref, selected, eligible ▸ no⟩
    have following (lock : s.clock.lock = .pullIn ∨ s.clock.lock = .locked) : s.clock.lock ≠ .holdover := fun other => by
      rw [other] at lock
      exact lock.elim LockState.noConfusion LockState.noConfusion
    have free_kept (lock : s.clock.lock = .free) (some : s.clock.lock = .pullIn ∨ s.clock.lock = .locked) : ¬ dropped := by
      rw [lock] at some
      exact some.elim LockState.noConfusion LockState.noConfusion
    refine ⟨fun lock => ?_, fun lock past => ?_, fun lock early => ?_, fun lock drop => ?_, fun lock kept => ?_,
      fun k lock kept revert best before => ?_, fun lock kept stays => ?_⟩
    · refine looked (.inl lock) rfl rfl rfl (waits (fun both => ?_) (free_kept lock))
      exact LockState.noConfusion (lock.symm.trans both.1)
    · obtain ⟨start, begun, over'⟩ := past
      refine looked (c := fallen) (.inl rfl) rfl rfl rfl ?_
      rw [applyLimit_expires (c := listed) stamp lock begun over']
      exact dropIneligible_stays (c := fallen) fun _ none => absurd none.symm (Option.some_ne_none _)
    · exact looked (.inr lock) rfl rfl rfl (waits (fun both => early both.2) fun some => absurd lock (following some))
    · obtain ⟨ref, selected, unranked⟩ := drop
      refine looked (c := held) (.inr rfl) rfl rfl rfl ?_
      rw [applyLimit_stays (c := listed) fun both => following lock both.1]
      exact dropIneligible_drops (c := listed) stamp selected (decide_eq_true ⟨lock, selected⟩) (eligible ▸ unranked)
    · exact runs ((congrArg look (waits (fun both => following (.inl lock) both.1) fun _ => kept)).trans
        (look_pulling (s := posted listed [] _) lock))
    · exact enters rfl rfl ((congrArg look (waits (fun both => following (.inr lock) both.1) fun _ => kept)).trans
        (look_takes (s := posted listed [] _) best (.inr (.inr ⟨lock, (Bool.and_eq_true ..).mpr ⟨revert, (ranks k).mpr before⟩⟩))))
    · refine runs ((congrArg look (waits (fun both => following (.inr lock) both.1) fun _ => kept)).trans
        (look_stays (s := posted listed [] _) (.inr (.inr ⟨lock, fun k best => Bool.eq_false_iff.mpr fun both => ?_⟩))))
      obtain ⟨set, before⟩ := (Bool.and_eq_true ..).mp both
      exact stays.elim (fun unset => Bool.false_ne_true (unset.symm.trans set)) fun none => none k best ((ranks k).mp before)
  · refine (act_takeRequest h ..).trans ?_
    unfold ownClockCandidates
    rw [Option.bind_some, readCandidates_refused out]
    rfl

end Sys2Proof.Machine

/-! The messages of a surface and the rule that wins them (R123, R124, R142 to R144). -/

namespace Sys2Proof.Machine

open Sys2Proof.Safety

section Matching

variable {start count : Nat} {p : Fin 512 → Bool}

theorem ruleOf_eq_some {k : Nat} {n : Fin 512} : ruleOf k = some n ↔ k = n.val := by
  refine ⟨fun same => ?_, fun same => same ▸ ruleOf_val n⟩
  obtain ⟨below, rule⟩ := Option.dite_none_right_eq_some.mp same
  exact congrArg Fin.val (Option.some.inj rule)

theorem bind_ruleOf {o : Option Nat} {n : Fin 512} : o.bind ruleOf = some n ↔ o = some n.val := by
  obtain _ | k := o
  · exact iff_of_false (Option.some_ne_none n).symm (Option.some_ne_none _).symm
  · exact ruleOf_eq_some.trans (Option.some_inj (a := k) (b := n.val)).symm

/-- The first rule of a block that is accepted, by its number (R142). -/
theorem find_block {n : Fin 512} :
    (((List.range count).map (start + ·)).filterMap ruleOf).find? p = some n ↔
      p n = true ∧ (start ≤ n.val ∧ n.val < start + count) ∧ ∀ k : Fin 512, start ≤ k.val → k < n → ¬ p k = true := by
  have rule (k : Fin 512) : (ruleOf k.val).any p = p k := congrArg (Option.any p) (ruleOf_val k)
  rw [List.range_eq_range', List.map_add_range', List.find?_filterMap]
  refine bind_ruleOf.trans (List.find?_range'_eq_some.trans (and_congr (iff_of_eq (congrArg (· = true) (rule n)))
    (and_congr List.mem_range'_1 ⟨fun first k low below won => ?_, fun first k low below => ?_⟩)))
  · exact Bool.false_ne_true (((Bool.not_eq_true' _).mp (first k low below)).symm.trans ((rule k).trans won))
  · have below' : k < 512 := below.trans n.2
    exact (Bool.not_eq_true' _).mpr ((rule ⟨k, below'⟩).trans (Bool.eq_false_iff.mpr (first ⟨k, below'⟩ low below)))

theorem find_block_none : (((List.range count).map (start + ·)).filterMap ruleOf).find? p = none ↔
    ∀ n : Fin 512, start ≤ n.val ∧ n.val < start + count → ¬ p n = true := by
  rw [List.range_eq_range', List.map_add_range']
  refine List.find?_eq_none.trans ⟨fun none n inside => none n ?_, fun none n found => none n ?_⟩
  · exact List.mem_filterMap.mpr ⟨n.val, List.mem_range'_1.mpr inside, ruleOf_val n⟩
  · obtain ⟨k, inside, same⟩ := List.mem_filterMap.mp found
    obtain rfl := ruleOf_eq_some.mp same
    exact List.mem_range'_1.mp inside

theorem Rule.wins_iff (m : InMessage) (r : Rule) : r.wins m = true ↔
    r.valid = true ∧ m.kind ∈ r.kinds ∧ m.address &&& r.mask = r.address &&& r.mask := by
  unfold Rule.wins
  rw [Bool.and_eq_true, Bool.and_eq_true, and_assoc, List.contains_iff_mem, decide_eq_true_iff]

end Matching

theorem natAbs_cast_sub (v p : Nat) : ((v : Int) - p).natAbs = max v p - min v p := by
  obtain le | le := Nat.le_total v p
  · rw [max_eq_right le, min_eq_left le, Int.natAbs_natCast_sub_natCast_of_le le]
  · rw [max_eq_left le, min_eq_right le, Int.natAbs_natCast_sub_natCast_of_ge le]

/-- A position within the deadband of the last one that passed, and not at an end, stops (R143). -/
theorem deadbandPasses_iff {deadband : Nat} {last : Option Nat} {v : Nat} : ¬ deadbandPasses deadband last v = true ↔
    ∃ p : Nat, last = some p ∧ ((v : Int) - p).natAbs < deadband ∧ (v : Int) ≠ 0 ∧ (v : Int) ≠ 1023 := by
  obtain _ | p := last
  · exact iff_of_false (fun no => no rfl) fun h => h.elim fun p h => Option.some_ne_none p h.1.symm
  · have stops : ¬ (deadband ≤ max v p - min v p ∨ v = 0 ∨ v = 1023) ↔
        ((v : Int) - p).natAbs < deadband ∧ (v : Int) ≠ 0 ∧ (v : Int) ≠ 1023 := by
      rw [natAbs_cast_sub]
      exact not_or.trans (and_congr not_le (not_or.trans (and_congr (not_congr Int.ofNat_inj.symm) (not_congr Int.ofNat_inj.symm))))
    refine (not_congr decide_eq_true_iff).trans (stops.trans ⟨fun h => ⟨p, rfl, h⟩, fun h => h.elim fun q h => ?_⟩)
    exact Option.some.inj h.1 ▸ h.2

theorem pressedValue_toNat {raw : Int} (positive : 0 ≤ raw) :
    ((pressedValue raw.toNat : Nat) : Int) = if raw = 0 then 0 else 1 := by
  obtain ⟨_ | n, rfl⟩ := Int.eq_ofNat_of_zero_le positive <;> rfl

section Messages

variable {m : InMessage} {clamped : Bool} {s : State}

/-- A surface that has heard a message. -/
def Surface.heard (clamped : Bool) (time : Nat) (f : Surface) : Surface :=
  { f.counted clamped time with silenceStart := time }

theorem hearMessage_setup {t : State} (heard : s.onSurface m.link (Surface.heard clamped s.clock.time) = t)
    (online : (s.surfaces.get m.link).state = .online) (setup : s.device.mode = .setup) : hearMessage m clamped s =
      postEvent ⟨m.link, m.kind, m.address, m.value, 0xFFFF, stampNow s⟩ t := by
  subst heard
  refine (if_pos online).trans ?_
  rw [setup]
  rfl

theorem hearMessage_operate {t : State} (heard : s.onSurface m.link (Surface.heard clamped s.clock.time) = t)
    (online : (s.surfaces.get m.link).state = .online) (operate : s.device.mode = .operate) :
    hearMessage m clamped s = actOn m t := by
  subst heard
  refine (if_pos online).trans ?_
  rw [operate]
  rfl

theorem actOn_unmatched (none : winner s.rules m = none) : actOn m s =
    s.onSurface m.link fun f => { f with counters := { f.counters with unmatched := bump32 f.counters.unmatched } } := by
  unfold actOn
  rw [none]

theorem actOn_matched {n : Fin 512} (won : winner s.rules m = some n) {r r' : Rule} (rule : s.rules.rules.get n = r)
    (passed : r.passed m = r') : actOn m s = if passes m r then r.actions.foldl (fun t a => runAction m a t)
      { s with rules := { s.rules with
        rules := s.rules.rules.set n r' n.2
        counters := { s.rules.counters with matched := bump32 s.rules.counters.matched } } }
    else { s with rules := { s.rules with counters := { s.rules.counters with
      matched := bump32 s.rules.counters.matched, deadbandDrops := bump32 s.rules.counters.deadbandDrops } } } := by
  subst rule passed
  unfold actOn
  rw [won]
  rfl

/-- A POSITION is remembered (R143). -/
theorem passed_eq (m : InMessage) (r : Rule) :
    r.passed m = if m.kind = .position then { r with lastPassed := some m.value.toNat } else r := by
  unfold Rule.passed
  obtain _ | _ | _ | _ := m.kind <;> rfl

/-- Only a POSITION is stopped (R143). -/
theorem passes_iff {link : Fin 4} {kind : MessageKind} {address : Nat} {value : Int} (r : Rule)
    (positive : kind = .position → 0 ≤ value) : ¬ passes ⟨link, kind, address, value⟩ r = true ↔ kind = .position ∧
      ∃ p : Nat, r.lastPassed = some p ∧ (value - p).natAbs < r.deadband ∧ value ≠ 0 ∧ value ≠ 1023 := by
  obtain _ | _ | _ | _ := kind
  case position =>
    obtain ⟨v, rfl⟩ := Int.eq_ofNat_of_zero_le (positive rfl)
    exact deadbandPasses_iff.trans (and_iff_right rfl).symm
  all_goals exact iff_of_false (fun no => no rfl) fun h => MessageKind.noConfusion h.1

end Messages

/-- Settles O57: a message as it is handed on, then discarded, forwarded or run by its winner; the winner is the first that
`find_block` finds. -/
theorem surfaceMessagesReachTheRules : Obligations.SurfaceMessagesReachTheRules := by
  constructor
  · intro i kind address raw s within nonneg c value m f clamped counted heard
    have positive : kind = .position → 0 ≤ value := fun position => by
      dsimp only [value]
      rw [position]
      exact le_min (nonneg (position ▸ MessageKind.noConfusion)) (by decide)
    have runs : exec c s = act (hearMessage m (decide ((kind = .position ∨ kind = .turn) ∧ value ≠ raw))) s := by
      dsimp only [c, m, value]
      clear positive heard counted clamped f m c
      have unchanged {kind : MessageKind} {value : Int} (other : kind ≠ .position ∧ kind ≠ .turn) :
          false = decide ((kind = .position ∨ kind = .turn) ∧ value ≠ raw) :=
        (decide_eq_false fun h => h.1.elim other.1 other.2).symm
      have same {kind : MessageKind} {v v' : Int} {b b' : Bool} (value : v = v') (changed : b = b') :
          act (hearMessage ⟨i, kind, address, v⟩ b) s = act (hearMessage ⟨i, kind, address, v'⟩ b') s := by
        rw [value, changed]
      obtain _ | _ | _ | _ := kind
      case position =>
        refine same (v := positionValue raw.toNat) (b := decide (1023 < raw.toNat)) ?_ (decide_eq_decide.mpr ?_)
        · exact (Nat.cast_min ..).trans (congrArg (min · 1023) (Int.toNat_of_nonneg (nonneg MessageKind.noConfusion)))
        · refine Iff.trans ?_ (and_iff_right (.inl rfl)).symm
          exact Int.lt_toNat.trans (not_le.symm.trans (not_congr min_eq_left_iff.symm))
      case turn =>
        refine same (b := decide (raw < -64 ∨ 63 < raw)) (saturate_eq (lo := -64) (hi := 63) (by decide) raw) (decide_eq_decide.mpr (Iff.trans ?_ (and_iff_right (.inr rfl)).symm))
        refine ⟨fun out same => out.elim (fun low => ?_) fun high => ?_, fun ne => or_iff_not_and_not.mpr fun inside => ne ?_⟩
        · exact low.not_ge ((le_max_left ..).trans_eq same)
        · exact high.not_ge (same.symm.le.trans (max_le (by decide) (min_le_left ..)))
        · rw [min_eq_right (not_lt.mp inside.2), max_eq_right (not_lt.mp inside.1)]
      case touch =>
        exact same (pressedValue_toNat (nonneg MessageKind.noConfusion)) (unchanged ⟨MessageKind.noConfusion, MessageKind.noConfusion⟩)
      case press =>
        exact same (pressedValue_toNat (nonneg MessageKind.noConfusion)) (unchanged ⟨MessageKind.noConfusion, MessageKind.noConfusion⟩)
    have count := if_congr (decide_eq_true_iff (p := (kind = .position ∨ kind = .turn) ∧ value ≠ raw))
      (Eq.refl (bump32 f.counters.clamped)) (Eq.refl f.counters.clamped)
    have hears : s.onSurface i (Surface.heard _ s.clock.time) = heard :=
      congrArg (fun n : Nat => { s with surfaces := s.surfaces.set i { f with
        silenceStart := s.clock.time, assembler := [], assemblerStart := s.clock.time
        counters := { f.counters with received := bump32 f.counters.received, clamped := n } } i.2 }) count
    have next {t : State} (e : hearMessage m _ s = t) : exec c s = .next t := runs.trans (act_eq within e)
    refine ⟨fun away => next ((if_neg away).trans ?_), fun on setup => next (hearMessage_setup hears on setup),
      fun on operate none => next ((hearMessage_operate rfl on operate).trans ((actOn_unmatched (s := s.onSurface m.link _) none).trans ?_)),
      fun n on operate won => ?_⟩
    · exact congrArg (fun n : Nat => { s with surfaces := s.surfaces.set i { f with
        assembler := [], assemblerStart := s.clock.time
        counters := { f.counters with
          received := bump32 f.counters.received, clamped := n, discarded := bump32 f.counters.discarded } } i.2 }) count
    · refine (congrArg (fun v => { s with surfaces := v }) (modifyEntry_twice ..)).trans ?_
      exact congrArg (fun n : Nat => { s with surfaces := s.surfaces.set i { f with
        silenceStart := s.clock.time, assembler := [], assemblerStart := s.clock.time
        counters := { f.counters with
          received := bump32 f.counters.received, clamped := n, unmatched := bump32 f.counters.unmatched } } i.2 }) count
    · intro rule matched stops
      have acts := next ((hearMessage_operate hears on operate).trans (actOn_matched (s := heard) won (r := rule) rfl (passed_eq m rule)))
      refine ⟨fun drops => acts.trans ?_, fun goesOn => acts.trans ?_⟩
      · exact congrArg _ (if_neg ((passes_iff rule positive).mpr drops))
      · exact congrArg _ (if_pos (of_not_not fun no => goesOn ((passes_iff rule positive).mp no)))
  · intro u m fits matching
    have wins (n : Fin 512) : matching n.val (u.rules.get n) ↔ ((u.blocks.get m.link).start ≤ n.val ∧
        n.val < (u.blocks.get m.link).start + (u.blocks.get m.link).count) ∧ (u.rules.get n).wins m = true :=
      and_assoc.symm.trans (and_congr_right' (Rule.wins_iff m _).symm)
    refine ⟨fun n => find_block.trans ⟨fun h => ?_, fun h => ?_⟩, find_block_none.trans ⟨fun none n matched => ?_, fun none n inside won => ?_⟩⟩
    · obtain ⟨won, inside, first⟩ := h
      refine ⟨(wins n).mpr ⟨inside, won⟩, fun k below matched => ?_⟩
      obtain ⟨⟨low, -⟩, won⟩ := (wins k).mp matched
      exact first k low below won
    · obtain ⟨inside, won⟩ := (wins n).mp h.1
      exact ⟨won, inside, fun k low below won => h.2 k below ((wins k).mpr ⟨⟨low, lt_trans (show k.val < n.val from below) inside.2⟩, won⟩)⟩
    · obtain ⟨inside, won⟩ := (wins n).mp matched
      exact none n inside won
    · exact none n ((wins n).mpr ⟨inside, won⟩)

end Sys2Proof.Machine
